-- ==== Sys2Proof/Word.lean ====
section
/-! DEFINITION. The word and byte types of the NX2403 model. -/

namespace Sys2Proof

/-- A byte (R141). -/
abbrev Byte := BitVec 8

/-- A 32-bit word of function-block code or of a register (R138, R141). -/
abbrev Word := BitVec 32

/-- A 64-bit word: round counts, cycle indices, keys, status words. -/
abbrev DWord := BitVec 64

/-- A register number X0-X31 (R138). -/
abbrev Reg := BitVec 5

end Sys2Proof
end

