-- ==== Sys2Proof/Syntax.lean ====
section
/-! DEFINITION. The commands of the NX2403: one constructor of `Instr` per row of spec/opcode_table.json, and the
types of their operands. -/

namespace Sys2Proof

/-- Lanes L0-L3 (00, R11). -/
inductive LaneId where
  | l0 | l1 | l2 | l3
  deriving DecidableEq, Repr

/-- Hubs H0 and H1. -/
inductive HubId where
  | h0 | h1
  deriving DecidableEq, Repr

/-- Field tiles T0 and T1. -/
inductive TileId where
  | t0 | t1
  deriving DecidableEq, Repr

/-- Seats 1-3 (R67). -/
inductive SeatId where
  | s1 | s2 | s3
  deriving DecidableEq, Repr

/-- Brodxo ports P0-P3 (R221). -/
inductive PortId where
  | p0 | p1 | p2 | p3
  deriving DecidableEq, Repr

/-- The main core M and the checker core K of a lane. -/
inductive Core where
  | m | k
  deriving DecidableEq, Repr

/-- One value per lane, L0 first. -/
structure Quad (α : Type) where
  l0 : α
  l1 : α
  l2 : α
  l3 : α
  deriving DecidableEq, Repr

/-- One value per hub, tile or cuff group of a tile, the lower number first. -/
structure Duo (α : Type) where
  a : α
  b : α
  deriving DecidableEq, Repr

/-- The rails a lane's supply monitor watches (R541). -/
inductive Rail where
  | vdd | vaux | doze
  deriving DecidableEq, Repr

/-- A die whose temperature drives TALERT_N (R559). -/
inductive Die where
  | lane (l : LaneId)
  | hub (h : HubId)
  | tile (t : TileId)
  deriving DecidableEq, Repr

/-- Which reference mark a lane receives (R201): a hub's boundary mark or a seat's round-boundary message. -/
inductive MarkSource where
  | hub (h : HubId)
  | seat
  deriving DecidableEq, Repr

/-- Why a flash block is retired (R507). -/
inductive FlashFault where
  | erase | program | wear
  deriving DecidableEq, Repr

/-- Buffer classes of the bridge (R428). -/
inductive BufClass where
  | command | imageCopy | event | bulk | telemetry
  deriving DecidableEq, Repr

/-- A hub block that can gate its clock (R498). -/
inductive HubBlock where
  | firmware
  | cls (c : BufClass)
  deriving DecidableEq, Repr

/-- A Valuz engine: one in each lane and one in each hub (12). -/
inductive Engine where
  | lane (l : LaneId)
  | hub (h : HubId)
  deriving DecidableEq, Repr

/-- The source of a performance counter (R459). -/
inductive CtrSource where
  | lane (l : LaneId)
  | hub (h : HubId)
  deriving DecidableEq, Repr

/-- What a counting input's filter has passed (R324). -/
inductive CountEdge where
  | rise | fall | quadUp | quadDown
  deriving DecidableEq, Repr

/-- Which host read failed with UR, CA or poison (R446). -/
inductive DmaKind where
  | cmdFetch
  | block
  | valuz
  deriving DecidableEq, Repr

/-- A register of M that the debugger may write (R53). -/
inductive DebugReg where
  | x (r : Reg)
  | pc
  | ib
  deriving DecidableEq, Repr

/-- The flash writes a posted command waits for (R412, R470, R483). -/
inductive FlashWrite where
  | settings | settingsErase | journalBlock | confirmed
  deriving DecidableEq, Repr

/-- A task of split mode (R57-R61): where it runs and how far it has come. -/
inductive SplitStatus where
  | running | saved | dropped | stopped
  deriving DecidableEq, Repr

/-- A split task: its number, its core and its status. -/
structure SplitTask where
  tid    : Nat
  core   : Core
  status : SplitStatus
  deriving DecidableEq, Repr

/-- What a full self-test has measured (R46, R47, R50, R212): each core's 64-bit result, none when it never came;
whether the shared pair logic answered as the OTP expects; the compensated rate of each oscillator over 100 ms of
reference marks, in 0.1 ppm; the march
test of each flagged bank; the OTP record checks (R512); the failing test block and the duration for the record of
R531. -/
structure SelfTestResult where
  m      : Option DWord
  k      : Option DWord
  shared : Bool
  rate0  : Int
  rate1  : Int
  march  : List (Nat × Bool)
  otpOk  : Bool
  block  : Nat
  ms     : Nat
  deriving DecidableEq, Repr

/-- A seat contribution (R72): cycle index, context, seat, cycle result signature, the outbound words (each with
the number of its destination) and the CRC-32C code over them. -/
structure Contribution where
  cyc   : DWord
  ctx   : Nat
  seat  : SeatId
  sig   : DWord
  words : List (Nat × Word)
  code  : Word
  deriving DecidableEq, Repr

/-- A received frame as the port sees it (R225, R227-R229): its length with the FCS, whether the FCS passes, destination and
EtherType, the Brodxo header, the plan slot in which it arrives and the deviation of its start-of-frame delimiter from the
expected arrival, in ns. A VLAN tag or a pause frame shows in the EtherType. -/
structure FrameHead where
  len     : Nat
  fcsOk   : Bool
  dest    : BitVec 48
  etherType : BitVec 16
  version : Nat
  ftype   : Nat
  segment : Nat
  flags   : Nat
  sender  : Nat
  seq     : Word
  round   : BitVec 48
  slot    : Nat
  devNs   : Int
  deriving DecidableEq, Repr

/-- An UPLINK or CLAIM frame (R238, R246): payload and station code. -/
structure UplinkFrame where
  head    : FrameHead
  payload : List Byte
  code    : DWord
  deriving DecidableEq, Repr

/-- A DOWNLINK frame of another module (R234, R245): the bytes of its body. -/
structure DownFrame where
  head : FrameHead
  body : List Byte
  deriving DecidableEq, Repr

/-- The start of a slot of the plan, and how long after it the hub begins to send, in ns (R232, R254). -/
structure SlotTime where
  slot : Nat
  late : Int
  deriving DecidableEq, Repr

/-- M's active time in a measuring interval, in time-base ticks, and the operations the executive and the self-tests
committed in it (R32, R50). -/
structure PaceTime where
  ticks   : Nat
  execOps : Nat
  deriving DecidableEq, Repr

/-- The length of a block of an update package and its address in host memory (R470). -/
structure BlockRef where
  len  : Nat
  addr : DWord
  deriving DecidableEq, Repr

/-- A SYNC frame (R261) with its arrival and its send instant as R266 computes it, in ns of the receiver's own clock, and the deviation of
its arrival on the timeline of the port's guardian, in units of 10 ns (R276). -/
structure SyncFrame where
  head      : FrameHead
  roundFull : DWord
  planId    : DWord
  state     : Nat
  values    : Nat
  lastCorr  : Int
  rateCorr  : Int
  code      : DWord
  sentNs    : Int
  arriveNs  : Int
  guardTen  : Int
  deriving DecidableEq, Repr

/-- A COLD_START frame (R262) with its arrival and its send instant as R266 computes it, in ns of the receiver's own clock. -/
structure ColdStartFrame where
  head       : FrameHead
  roundFull  : DWord
  planId     : DWord
  attempt    : Nat
  collisions : Nat
  code       : DWord
  sentNs     : Int
  arriveNs   : Int
  deriving DecidableEq, Repr

/-- A gate command frame (R312): seat, round count, one bit per upper and per lower element of the 16 channels, the
cuff commands and the CRC-32C code. -/
structure GateFrame where
  seat  : SeatId
  round : DWord
  upper : BitVec 16
  lower : BitVec 16
  cuffs : BitVec 2
  code  : Word
  deriving DecidableEq, Repr

/-- What the field side has measured in a channel's test (R328, R331): L+ in mV; the midpoints of the three pairs in
mV during a dark pulse or between sub-pulses; the midpoint of the pair under test in each of the six sub-pulses, in
the order of R328; the highest node voltage in mV and pair current in mA; the load before the pulse and each pair's
current in mA; the channels whose raw samples stayed on through the pulse; the nodes of the tile's channels in EXT_FEED
during the pulse, in mV; whether a fence, a coupler failure or a sag made the test void (R330, R344). -/
structure GloveReading where
  lplusMv : Nat
  mids    : List Nat
  subs    : List Nat
  nodeMv  : Nat
  pairMa  : Nat
  loadMa  : Nat
  pairsMa : List Nat
  rawOn   : List Nat
  nodes   : List (Nat × Nat)
  isVoid  : Bool
  deriving DecidableEq, Repr

/-- What a lane has measured for LANE_PERIODIC (R502). -/
structure LaneMeasures where
  vcoreMv    : Nat
  tempC      : Int
  rate0      : Int
  rate1      : Int
  pausePct   : Nat
  napPct     : Nat
  dozePct    : Nat
  reservePct : Nat
  backlog    : Bool
  deriving DecidableEq, Repr

/-- The day's figures for a WEAR record (R504, R505). -/
structure WearFit where
  paceNormDay : Nat
  hours       : Nat
  eraseMax    : Nat
  deriving DecidableEq, Repr

/-- What a hub has measured for HUB_PERIODIC (R504). -/
structure HubMeasures where
  tempC    : Int
  vcoreMv  : Nat
  gatedPct : Nat
  replays  : Nat
  deriving DecidableEq, Repr

/-- The operation a COUNTER_SAMPLE records (R456, R457): master bit number, privilege, context, PC, IB and the skid. -/
structure SampleOp where
  master : Nat
  priv   : Nat
  ctx    : Nat
  pc     : Word
  ib     : Word
  skid   : Nat
  deriving DecidableEq, Repr

/-- The create block of CHANNEL_CREATE, by handle type (R409, R433, R437, R459). -/
inductive CreateBlock where
  | station (addr : Nat)
  | eventCh (base : DWord) (n : Nat)
  | mapping (ctx : Nat) (minPeriodUs : Nat) (base : DWord) (ranges : List (Nat × Nat))
  | telemetry (source : Nat) (base : DWord) (n : Nat)
  | request (ctx : Nat) (chan : Nat)
  | counters (source : Nat) (mask : BitVec 16)
  | other (ty : Nat)
  deriving DecidableEq, Repr

/-- The header of a command entry (R398) as the hub fetches it, with the moment of its stamping in µs after the
latest round boundary (R124). -/
structure Hdr where
  hub     : HubId
  tag     : Word
  handle  : Word
  fence   : Bool
  irq     : Bool
  flagRsv : Nat
  version : Nat
  status  : Nat
  plen    : Nat
  us      : Nat
  deriving DecidableEq, Repr

/-- A seat map (R70): the lane of each seat, none where the seat is vacant. -/
structure SeatMap where
  s1 : Option LaneId
  s2 : Option LaneId
  s3 : Option LaneId
  deriving DecidableEq, Repr

/-- The commands, one constructor per row of the table of operations and events. -/
inductive Instr where
  /-- POWER_GOOD (R520). -/
  | powerGood (benchN : Bool) (rails : Quad Bool) (tileCal : Duo Bool)
  /-- POWER_LOSS (R543). -/
  | powerLoss (us : Nat)
  /-- PFAIL_WARNING (R544). -/
  | pfailWarning (us : Nat)
  /-- JOURNAL_REOPEN (R544). -/
  | journalReopen
  /-- SUPPLY_EXCURSION (R541). -/
  | supplyExcursion (l : LaneId) (rail : Rail) (mv : Nat) (ns : Nat)
  /-- SUPPLY_RECOVERY (R31). -/
  | supplyRecovery (l : LaneId)
  /-- THERMAL_ALERT (R559). -/
  | thermalAlert (die : Die) (tempC : Int)
  /-- HUB_FIRMWARE_LOADED (R13). -/
  | hubFirmwareLoaded (h : HubId) (flashOk : Bool)
  /-- IMAGE_VOTE (R524). -/
  | imageVote
  /-- IMAGE_LOAD_COMPLETE (R375). -/
  | imageLoadComplete (l : LaneId)
  /-- GROUP_FORMATION (R525). -/
  | groupFormation (ms : Nat)
  /-- ROUND_COUNT_TIMEOUT (R522). -/
  | roundCountTimeout
  /-- ROUND_BOUNDARY (R115). -/
  | roundBoundary
  /-- BOUNDARY_OFFSET_FENCE (R210). -/
  | boundaryOffsetFence (l : LaneId)
  /-- OUTPUT_POINT (R126). -/
  | outputPoint (ctx : Nat)
  /-- DOWNLINK_BUILD (R114). -/
  | downlinkBuild
  /-- CYCLE_MARK (R120). -/
  | cycleMark (ctx : Nat) (mark : Nat)
  /-- SIGNATURE_WINDOW_CLOSE (R40). -/
  | signatureWindowClose (l : LaneId) (kFault : BitVec 64) (injectedSeen : Bool)
  /-- SPLIT_TASK_CHECKPOINT (R59). -/
  | splitTaskCheckpoint (l : LaneId) (task : Nat)
  /-- SPLIT_DROP_TIMEOUT (R60). -/
  | splitDropTimeout (l : LaneId)
  /-- SPLIT_ENTRY (R57). -/
  | splitEntry (l : LaneId) (march : List (Nat × Bool)) (work : List SplitTask)
  /-- SPLIT_TASK_STOP (R58). -/
  | splitTaskStop (l : LaneId) (task : Nat) (addr : BitVec 32) (write : Bool)
  /-- SELF_TEST_COMPLETE (R46). -/
  | selfTestComplete (l : LaneId) (res : SelfTestResult)
  /-- SELF_TEST_RESULT_TIMEOUT (R47). -/
  | selfTestResultTimeout (l : LaneId) (core : Core)
  /-- QUICK_TEST_COMPLETE (R50). -/
  | quickTestComplete (l : LaneId) (pass : Bool) (ms : Nat)
  /-- JOIN_COPY_COMPLETE (R85). -/
  | joinCopyComplete
  /-- STAGED_STORE_RESUME (R85). -/
  | stagedStoreResume (l : LaneId) (block : Nat)
  /-- CATCH_UP_COMPLETE (R86). -/
  | catchUpComplete
  /-- CATCH_UP_DEADLINE (R89). -/
  | catchUpDeadline
  /-- REVERT_HOLDOFF_EXPIRY (R93). -/
  | revertHoldoffExpiry (l : LaneId)
  /-- ROTATION_DUE (R96). -/
  | rotationDue
  /-- CONTRIBUTION_RECEIVED (R73). -/
  | contributionReceived (l : LaneId) (cb : Contribution) (relayed : Bool)
  /-- CONTRIBUTION_RETRY_TIMEOUT (R73). -/
  | contributionRetryTimeout (l : LaneId) (ctx : Nat) (cyc : BitVec 64) (seat : SeatId)
  /-- COMPARISON_DEADLINE (R75). -/
  | comparisonDeadline (l : LaneId) (ctx : Nat) (cyc : BitVec 64)
  /-- ACCUSATION_RECEIVED (R76). -/
  | accusationReceived (l : LaneId) (sender : LaneId) (named : SeatId) (timeBase : Bool)
  /-- FENCE_MESSAGE_RECEIVED (R45). -/
  | fenceMessageReceived (l : LaneId) (sender : LaneId)
  /-- JOIN_ANNOUNCE_RECEIVED (R84). -/
  | joinAnnounceReceived (joiner : LaneId)
  /-- STRAIT_LINK_FAIL (R74). -/
  | straitLinkFail (a : LaneId) (b : LaneId)
  /-- COMPARATOR_PROVING (R78). -/
  | comparatorProving (l : LaneId) (reported : Bool) (share : BitVec 32) (stationOk : Bool)
  /-- PACE_MEASUREMENT (R32). -/
  | paceMeasurement (l : LaneId) (active : PaceTime) (probeOps : Nat) (probeTicks : Nat)
  /-- TB_COMPENSATION (R199). -/
  | tbCompensation (l : LaneId) (tempC : Int)
  /-- BOUNDARY_MARK_RECEIVED (R201). -/
  | boundaryMarkReceived (l : LaneId) (src : MarkSource) (m0 : Nat) (m1 : Nat) (offset : Int)
  /-- TIME_MEASUREMENT_RECEIVED (R208). -/
  | timeMeasurementReceived (l : LaneId) (sender : LaneId) (ns : Nat)
  /-- TIME_COMPARISON (R209). -/
  | timeComparison (l : LaneId)
  /-- OSCILLATOR_CHECK (R211). -/
  | oscillatorCheck (l : LaneId) (rate0 : Int) (rate1 : Int)
  /-- SCRUB_STEP (R385). -/
  | scrubStep (badBlocks : Quad (List Nat))
  /-- SCRUB_RESULT_RECEIVED (R386). -/
  | scrubResultReceived (l : LaneId) (sender : LaneId) (result : BitVec 64)
  /-- SCRUB_REPAIR_RECEIVED (R387). -/
  | scrubRepairReceived (l : LaneId)
  /-- FLASH_IMAGE_HASH (R508). -/
  | flashImageHash (l : LaneId)
  /-- FLASH_BLOCK_FAILURE (R507). -/
  | flashBlockFailure (l : LaneId) (block : Nat) (why : FlashFault)
  /-- POWER_STATE_ENTRY (R494). -/
  | powerStateEntry (l : LaneId) (te : Nat)
  /-- LANE_WAKE (R495). -/
  | laneWake (l : LaneId)
  /-- HUB_CLOCK_GATE (R498). -/
  | hubClockGate (h : HubId) (blk : HubBlock) (gate : Bool)
  /-- THRESHOLD_CALIBRATION (R319). -/
  | thresholdCalibration (t : TileId) (offMv : List Nat)
  /-- LANE_PERIODIC_RECORD (R502). -/
  | lanePeriodicRecord (l : LaneId) (m : LaneMeasures)
  /-- TELEMETRY_INTERVAL_RESTORE (R500). -/
  | telemetryIntervalRestore (l : LaneId)
  /-- WEAR_RECORD (R505). -/
  | wearRecord (l : LaneId) (w : WearFit)
  /-- HUB_PERIODIC_RECORD (R504). -/
  | hubPeriodicRecord (h : HubId) (m : HubMeasures)
  /-- COUNTER_OVERFLOW (R455). -/
  | counterOverflow (src : CtrSource) (n : Nat) (op : SampleOp)
  /-- VALUZ_SCAN_COMPLETE (R379). -/
  | valuzScanComplete (eng : Engine) (ch : Nat) (data : List (BitVec 8)) (hostOk : Bool)
  /-- BLOCK_APPLIED (R471). -/
  | blockApplied (l : LaneId)
  /-- BANK_COPY_COMPLETE (R472). -/
  | bankCopyComplete (l : LaneId) (src : LaneId)
  /-- UPDATE_VERIFY_COMPLETE (R473). -/
  | updateVerifyComplete
  /-- HUB_FW_RESTART (R487). -/
  | hubFwRestart (h : HubId)
  /-- HUB_FW_RESTART_TIMEOUT (R487). -/
  | hubFwRestartTimeout
  /-- STAMPED_ACTION_RECEIVED (R19). -/
  | stampedActionReceived (h : HubId)
  /-- STATUS_MESSAGE_RECEIVED (R65). -/
  | statusMessageReceived (h : HubId) (l : LaneId)
  /-- HUB_ROUND_BOUNDARY (R274). -/
  | hubRoundBoundary (p : PortId) (atNs : Int)
  /-- NODE_INTEGRATED (R271). -/
  | nodeIntegrated (p : PortId)
  /-- LEAVE_INTEGRATION (R277). -/
  | leaveIntegration (p : PortId)
  /-- GUARDIAN_LOCKED (R253). -/
  | guardianLocked (p : PortId)
  /-- GUARDIAN_LISTEN (R253). -/
  | guardianListen (p : PortId)
  /-- GUARDIAN_WINDOW_OPEN (R254). -/
  | guardianWindowOpen (p : PortId) (slot : Nat)
  /-- GUARDIAN_WINDOW_CLOSE (R254). -/
  | guardianWindowClose (p : PortId) (slot : Nat)
  /-- SLOT_START (R232). -/
  | slotStart (p : PortId) (at_ : SlotTime)
  /-- LISTEN_TIMEOUT (R265). -/
  | listenTimeout (p : PortId)
  /-- COLD_START_RECEIVED (R268). -/
  | coldStartReceived (p : PortId) (f : ColdStartFrame)
  /-- SYNC_RECEIVED (R273). -/
  | syncReceived (p : PortId) (f : SyncFrame)
  /-- UPLINK_RECEIVED (R239). -/
  | uplinkReceived (p : PortId) (f : UplinkFrame)
  /-- CLAIM_RECEIVED (R246). -/
  | claimReceived (p : PortId) (f : UplinkFrame)
  /-- DOWNLINK_FRAME_RECEIVED (R245). -/
  | downlinkFrameReceived (p : PortId) (f : DownFrame)
  /-- SCHEDULE_STANDIN_TAKEOVER (R245). -/
  | scheduleStandinTakeover
  /-- SPARE_RELEASE_TIMEOUT (R249). -/
  | spareReleaseTimeout (addr : Nat)
  /-- UPLINK_SEQUENCE_CLEAR (R297). -/
  | uplinkSequenceClear (addr : Nat)
  /-- SERVICE_TIMEOUT (R301). -/
  | serviceTimeout (addr : Nat)
  /-- GATE_COMMAND_FRAME (R312). -/
  | gateCommandFrame (t : TileId) (f : GateFrame)
  /-- TILE_STROBE (R313). -/
  | tileStrobe (t : TileId) (seat : SeatId)
  /-- SNAPSHOT_RECEIVED (R313). -/
  | snapshotReceived (l : LaneId) (t : TileId)
  /-- TILE_SNAPSHOT_TIMEOUT (R314). -/
  | tileSnapshotTimeout (l : LaneId) (t : TileId)
  /-- DEBOUNCE_CHANGE (R318). -/
  | debounceChange (t : TileId) (ch : Nat) (level : Bool) (off5us : Nat)
  /-- CHATTER_WINDOW_END (R321). -/
  | chatterWindowEnd (t : TileId) (ch : Nat)
  /-- COUNTING_PULSE (R324). -/
  | countingPulse (t : TileId) (ch : Nat) (edge : CountEdge)
  /-- TEST_PULSE_START (R328). -/
  | testPulseStart (t : TileId) (ch : Nat)
  /-- TEST_PULSE_END (R328). -/
  | testPulseEnd (t : TileId) (ch : Nat) (g : GloveReading)
  /-- OUTPUT_OVERLOAD (R331). -/
  | outputOverload (t : TileId) (ch : Nat)
  /-- MITTEN_SOURCE_OVERLOAD (R316). -/
  | mittenSourceOverload (t : TileId) (ch : Nat)
  /-- CUFF_OVERCURRENT (R333). -/
  | cuffOvercurrent (t : TileId) (g : Fin 2)
  /-- OUTPUT_UNSWITCHABLE (R334). -/
  | outputUnswitchable (t : TileId) (ch : Nat) (nodeMv : Nat) (pairMa : Nat)
  /-- CUFF_READBACK_CHECK (R335). -/
  | cuffReadbackCheck (t : TileId) (g : Fin 2) (showsOpen : Bool)
  /-- LPLUS_SAG (R336). -/
  | lplusSag (t : TileId) (g : Fin 2) (mv : Nat)
  /-- COUPLER_FAILURE (R310). -/
  | couplerFailure (t : TileId) (ch : Nat) (cp : Nat)
  /-- COUPLER_SPARE_SWITCHED (R310). -/
  | couplerSpareSwitched (t : TileId) (ch : Nat)
  /-- SEAT_SILENT (R337). -/
  | seatSilent (t : TileId) (seat : SeatId)
  /-- DISCREPANCY_LIMIT (R353). -/
  | discrepancyLimit (fn : Nat)
  /-- DRIVE_STANDSTILL (R363). -/
  | driveStandstill (drv : Nat)
  /-- DRIVE_T_MAX (R363). -/
  | driveTMax (drv : Nat)
  /-- DRIVE_FB_TIMEOUT (R363). -/
  | driveFbTimeout (drv : Nat)
  /-- DRIVE_SPEED_LOST (R363). -/
  | driveSpeedLost (drv : Nat)
  /-- HUB_LOST (R439). -/
  | hubLost (h : HubId)
  /-- ADOPTION_COMPLETE (R440). -/
  | adoptionComplete (h : HubId)
  /-- PCIE_LINK_DOWN_TIMEOUT (R439). -/
  | pcieLinkDownTimeout (h : HubId)
  /-- FUNCTION_LEVEL_RESET (R418). -/
  | functionLevelReset (h : HubId)
  /-- PERST (R550). -/
  | perst (h : HubId) (degraded : Bool)
  /-- DMA_ERROR (R446). -/
  | dmaError (h : HubId) (what : DmaKind)
  /-- MODERATION_HOLD_END (R426). -/
  | moderationHoldEnd (h : HubId) (vec : Fin 16)
  /-- COMMAND_DOORBELL (R393). -/
  | commandDoorbell (h : HubId) (v : BitVec 32) (unknown : List (Nat × Hdr))
  /-- RPL_CONS_WRITE (R396). -/
  | rplConsWrite (h : HubId) (v : BitVec 32)
  /-- SEV_CONS_WRITE (R397). -/
  | sevConsWrite (h : HubId) (v : BitVec 32)
  /-- EVCH_CONS_WRITE (R397). -/
  | evchConsWrite (h : HubId) (e : Fin 64) (v : BitVec 32)
  /-- PEER_EVCH_CONS_WRITE (R443). -/
  | peerEvchConsWrite (h : HubId) (e : Fin 64) (v : BitVec 32)
  /-- TLM_CONS_WRITE (R437). -/
  | tlmConsWrite (h : HubId) (e : Fin 16) (v : BitVec 32)
  /-- RING_ENABLE (R394). -/
  | ringEnable (h : HubId)
  /-- RING_DISABLE (R394). -/
  | ringDisable (h : HubId)
  /-- CNT_CLEAR (R424). -/
  | cntClear (h : HubId)
  /-- VALUZ_GO (R380). -/
  | valuzGo (eng : Engine) (ch : Nat)
  /-- VALUZ_ABORT (R380). -/
  | valuzAbort (eng : Engine) (ch : Nat)
  /-- REGISTER_WRITE (R8). -/
  | registerWrite (h : HubId) (off : Nat) (v : BitVec 32)
  /-- NOP (R392). -/
  | nop (hd : Hdr)
  /-- IDENTITY (R408). -/
  | identity (hd : Hdr)
  /-- LANE_STATUS (R64). -/
  | laneStatus (hd : Hdr)
  /-- GROUP_STATUS (R104). -/
  | groupStatus (hd : Hdr)
  /-- TILE_STATUS (R341). -/
  | tileStatus (hd : Hdr) (tile : Nat)
  /-- CONTEXT_STATUS (R131). -/
  | contextStatus (hd : Hdr) (ctx : Nat)
  /-- STATION_STATUS (R304). -/
  | stationStatus (hd : Hdr)
  /-- CHANNEL_CREATE (R409). -/
  | channelCreate (hd : Hdr) (cb : CreateBlock)
  /-- CHANNEL_DESTROY (R407). -/
  | channelDestroy (hd : Hdr)
  /-- EVENT_SUBSCRIBE (R410). -/
  | eventSubscribe (hd : Hdr) (code : Nat) (sel : BitVec 32)
  /-- EVENT_UNSUBSCRIBE (R410). -/
  | eventUnsubscribe (hd : Hdr) (code : Nat) (sel : BitVec 32)
  /-- CONTEXT_START (R130). -/
  | contextStart (hd : Hdr) (ctx : Nat)
  /-- CONTEXT_STOP (R130). -/
  | contextStop (hd : Hdr) (ctx : Nat)
  /-- CONTEXT_RESTART (R130). -/
  | contextRestart (hd : Hdr) (ctx : Nat)
  /-- VALUE_CHANGE (R133). -/
  | valueChange (hd : Hdr) (ctx : Nat) (n : Nat) (chg : List (Nat × BitVec 32))
  /-- VALUE_READ (R408). -/
  | valueRead (hd : Hdr) (ctx : Nat) (n : Nat) (idx : List Nat)
  /-- UPDATE_OPEN (R468). -/
  | updateOpen (hd : Hdr) (hdr : List (BitVec 8))
  /-- UPDATE_BLOCK (R470). -/
  | updateBlock (hd : Hdr) (no : Nat) (src : BlockRef) (data : List (BitVec 8))
  /-- UPDATE_VERIFY (R473). -/
  | updateVerify (hd : Hdr)
  /-- UPDATE_PLAN (R475). -/
  | updatePlan (hd : Hdr) (act : BitVec 64)
  /-- UPDATE_CONFIRM (R483). -/
  | updateConfirm (hd : Hdr)
  /-- UPDATE_ABORT (R489). -/
  | updateAbort (hd : Hdr)
  /-- UPDATE_STATUS (R490). -/
  | updateStatus (hd : Hdr)
  /-- COUNTER_CONFIG (R460). -/
  | counterConfig (hd : Hdr) (item : Nat) (w0 : BitVec 32) (w1 : BitVec 64)
  /-- COUNTER_READ (R461). -/
  | counterRead (hd : Hdr) (before : Nat) (after : Nat)
  /-- COUNTER_CLEAR (R461). -/
  | counterClear (hd : Hdr) (before : Nat) (after : Nat)
  /-- TELEMETRY_START (R437). -/
  | telemetryStart (hd : Hdr) (period : Nat)
  /-- TELEMETRY_STOP (R408). -/
  | telemetryStop (hd : Hdr)
  /-- REQUEST (R124). -/
  | request (hd : Hdr) (payload : List (BitVec 8))
  /-- SERVICE_READ (R301). -/
  | serviceRead (hd : Hdr) (param : BitVec 16) (len : Nat)
  /-- SERVICE_WRITE (R303). -/
  | serviceWrite (hd : Hdr) (param : BitVec 16) (data : List (BitVec 8))
  /-- ROTATE_NOW (R98). -/
  | rotateNow (hd : Hdr)
  /-- LANE_SELF_TEST (R99). -/
  | laneSelfTest (hd : Hdr) (lane : Nat)
  /-- HAT_CONFIRM (R372). -/
  | hatConfirm (hd : Hdr) (hat : BitVec 64)
  /-- GROUP_RESTART (R526). -/
  | groupRestart (hd : Hdr)
  /-- TILE_RESET (R342). -/
  | tileReset (hd : Hdr) (tile : Nat)
  /-- DRIVE_RESET (R363). -/
  | driveReset (hd : Hdr) (drv : Nat)
  /-- SETTING_GET (R408). -/
  | settingGet (hd : Hdr) (sid : Nat)
  /-- SETTING_SET (R412). -/
  | settingSet (hd : Hdr) (sid : Nat) (val : BitVec 32)
  /-- SETTINGS_SAVE (R412). -/
  | settingsSave (hd : Hdr)
  /-- SETTINGS_FACTORY (R412). -/
  | settingsFactory (hd : Hdr) (mode : Nat)
  /-- ADD (R150). -/
  | add (l : LaneId) (rd : Reg) (rs1 : Reg) (rs2 : Reg)
  /-- SUB (R150). -/
  | sub (l : LaneId) (rd : Reg) (rs1 : Reg) (rs2 : Reg)
  /-- MUL (R150). -/
  | mul (l : LaneId) (rd : Reg) (rs1 : Reg) (rs2 : Reg)
  /-- DIV (R148). -/
  | div (l : LaneId) (rd : Reg) (rs1 : Reg) (rs2 : Reg)
  /-- MOD (R148). -/
  | mod (l : LaneId) (rd : Reg) (rs1 : Reg) (rs2 : Reg)
  /-- MIN (R150). -/
  | min (l : LaneId) (rd : Reg) (rs1 : Reg) (rs2 : Reg)
  /-- MAX (R150). -/
  | max (l : LaneId) (rd : Reg) (rs1 : Reg) (rs2 : Reg)
  /-- ABS (R150). -/
  | abs (l : LaneId) (rd : Reg) (rs1 : Reg)
  /-- AND (R150). -/
  | and (l : LaneId) (rd : Reg) (rs1 : Reg) (rs2 : Reg)
  /-- OR (R150). -/
  | or (l : LaneId) (rd : Reg) (rs1 : Reg) (rs2 : Reg)
  /-- XOR (R150). -/
  | xor (l : LaneId) (rd : Reg) (rs1 : Reg) (rs2 : Reg)
  /-- ANDN (R150). -/
  | andn (l : LaneId) (rd : Reg) (rs1 : Reg) (rs2 : Reg)
  /-- SHL (R150). -/
  | shl (l : LaneId) (rd : Reg) (rs1 : Reg) (rs2 : Reg)
  /-- SHR (R150). -/
  | shr (l : LaneId) (rd : Reg) (rs1 : Reg) (rs2 : Reg)
  /-- SAR (R150). -/
  | sar (l : LaneId) (rd : Reg) (rs1 : Reg) (rs2 : Reg)
  /-- SEQ (R150). -/
  | seq (l : LaneId) (rd : Reg) (rs1 : Reg) (rs2 : Reg)
  /-- SNE (R150). -/
  | sne (l : LaneId) (rd : Reg) (rs1 : Reg) (rs2 : Reg)
  /-- SLT (R150). -/
  | slt (l : LaneId) (rd : Reg) (rs1 : Reg) (rs2 : Reg)
  /-- SLTU (R150). -/
  | sltu (l : LaneId) (rd : Reg) (rs1 : Reg) (rs2 : Reg)
  /-- SGE (R150). -/
  | sge (l : LaneId) (rd : Reg) (rs1 : Reg) (rs2 : Reg)
  /-- SGEU (R150). -/
  | sgeu (l : LaneId) (rd : Reg) (rs1 : Reg) (rs2 : Reg)
  /-- ADDI (R151). -/
  | addi (l : LaneId) (rd : Reg) (rs1 : Reg) (imm : BitVec 12)
  /-- ANDI (R151). -/
  | andi (l : LaneId) (rd : Reg) (rs1 : Reg) (imm : BitVec 12)
  /-- ORI (R151). -/
  | ori (l : LaneId) (rd : Reg) (rs1 : Reg) (imm : BitVec 12)
  /-- XORI (R151). -/
  | xori (l : LaneId) (rd : Reg) (rs1 : Reg) (imm : BitVec 12)
  /-- SHLI (R151). -/
  | shli (l : LaneId) (rd : Reg) (rs1 : Reg) (imm : BitVec 12)
  /-- SHRI (R151). -/
  | shri (l : LaneId) (rd : Reg) (rs1 : Reg) (imm : BitVec 12)
  /-- SARI (R151). -/
  | sari (l : LaneId) (rd : Reg) (rs1 : Reg) (imm : BitVec 12)
  /-- SLTI (R151). -/
  | slti (l : LaneId) (rd : Reg) (rs1 : Reg) (imm : BitVec 12)
  /-- SLTIU (R151). -/
  | sltiu (l : LaneId) (rd : Reg) (rs1 : Reg) (imm : BitVec 12)
  /-- SEQI (R151). -/
  | seqi (l : LaneId) (rd : Reg) (rs1 : Reg) (imm : BitVec 12)
  /-- MINI (R151). -/
  | mini (l : LaneId) (rd : Reg) (rs1 : Reg) (imm : BitVec 12)
  /-- MAXI (R151). -/
  | maxi (l : LaneId) (rd : Reg) (rs1 : Reg) (imm : BitVec 12)
  /-- LUI (R152). -/
  | lui (l : LaneId) (rd : Reg) (imm : BitVec 20)
  /-- LI (R152). -/
  | li (l : LaneId) (rd : Reg) (imm : BitVec 20)
  /-- LD (R153). -/
  | ld (l : LaneId) (ibBase : Bool) (rd : Reg) (rs1 : Reg) (imm : BitVec 12)
  /-- LDH (R153). -/
  | ldh (l : LaneId) (ibBase : Bool) (rd : Reg) (rs1 : Reg) (imm : BitVec 12)
  /-- LDHU (R153). -/
  | ldhu (l : LaneId) (ibBase : Bool) (rd : Reg) (rs1 : Reg) (imm : BitVec 12)
  /-- LDB (R153). -/
  | ldb (l : LaneId) (ibBase : Bool) (rd : Reg) (rs1 : Reg) (imm : BitVec 12)
  /-- LDBU (R153). -/
  | ldbu (l : LaneId) (ibBase : Bool) (rd : Reg) (rs1 : Reg) (imm : BitVec 12)
  /-- ST (R153). -/
  | st (l : LaneId) (ibBase : Bool) (rs : Reg) (rs1 : Reg) (imm : BitVec 12)
  /-- STH (R153). -/
  | sth (l : LaneId) (ibBase : Bool) (rs : Reg) (rs1 : Reg) (imm : BitVec 12)
  /-- STB (R153). -/
  | stb (l : LaneId) (ibBase : Bool) (rs : Reg) (rs1 : Reg) (imm : BitVec 12)
  /-- BEQ (R156). -/
  | beq (l : LaneId) (rs1 : Reg) (rs2 : Reg) (imm : BitVec 12)
  /-- BNE (R156). -/
  | bne (l : LaneId) (rs1 : Reg) (rs2 : Reg) (imm : BitVec 12)
  /-- BLT (R156). -/
  | blt (l : LaneId) (rs1 : Reg) (rs2 : Reg) (imm : BitVec 12)
  /-- BGE (R156). -/
  | bge (l : LaneId) (rs1 : Reg) (rs2 : Reg) (imm : BitVec 12)
  /-- BLTU (R156). -/
  | bltu (l : LaneId) (rs1 : Reg) (rs2 : Reg) (imm : BitVec 12)
  /-- BGEU (R156). -/
  | bgeu (l : LaneId) (rs1 : Reg) (rs2 : Reg) (imm : BitVec 12)
  /-- JMP (R157). -/
  | jmp (l : LaneId) (imm : BitVec 22)
  /-- JSR (R157). -/
  | jsr (l : LaneId) (imm : BitVec 22)
  /-- ICALL (R164). -/
  | icall (l : LaneId) (ty : BitVec 12) (off : BitVec 14)
  /-- ICALLR (R165). -/
  | icallr (l : LaneId) (rs1 : Reg) (rs2 : Reg)
  /-- RET (R166). -/
  | ret (l : LaneId)
  /-- MOVIB (R168). -/
  | movib (l : LaneId) (rd : Reg)
  /-- PLD (R160). -/
  | pld (l : LaneId) (rd : Reg) (pt : BitVec 17) (sel : BitVec 4)
  /-- PLDX (R160). -/
  | pldx (l : LaneId) (rd : Reg) (rs1 : Reg) (sel : BitVec 4)
  /-- PST (R161). -/
  | pst (l : LaneId) (rs : Reg) (pt : BitVec 17) (sel : BitVec 4)
  /-- PSTX (R161). -/
  | pstx (l : LaneId) (rs1 : Reg) (rs2 : Reg) (sel : BitVec 4)
  /-- TON (R173). -/
  | ton (l : LaneId) (rd : Reg) (rs1 : Reg) (imm : BitVec 12)
  /-- TOF (R173). -/
  | tof (l : LaneId) (rd : Reg) (rs1 : Reg) (imm : BitVec 12)
  /-- TP (R173). -/
  | tp (l : LaneId) (rd : Reg) (rs1 : Reg) (imm : BitVec 12)
  /-- TET (R174). -/
  | tet (l : LaneId) (rd : Reg) (imm : BitVec 12)
  /-- CTU (R178). -/
  | ctu (l : LaneId) (rd : Reg) (rs1 : Reg) (imm : BitVec 12)
  /-- CTD (R178). -/
  | ctd (l : LaneId) (rd : Reg) (rs1 : Reg) (imm : BitVec 12)
  /-- CTUD (R178). -/
  | ctud (l : LaneId) (rd : Reg) (rs1 : Reg) (imm : BitVec 12)
  /-- RTRG (R179). -/
  | rtrg (l : LaneId) (rd : Reg) (rs1 : Reg) (imm : BitVec 12)
  /-- FTRG (R179). -/
  | ftrg (l : LaneId) (rd : Reg) (rs1 : Reg) (imm : BitVec 12)
  /-- SR (R179). -/
  | sr (l : LaneId) (rd : Reg) (rs1 : Reg) (imm : BitVec 12)
  /-- RS (R179). -/
  | rs (l : LaneId) (rd : Reg) (rs1 : Reg) (imm : BitVec 12)
  /-- PMRD (R182). -/
  | pmrd (l : LaneId) (rd : Reg) (imm : BitVec 12) (high : Bool)
  /-- TIML (R181). -/
  | timl (l : LaneId) (rd : Reg)
  /-- TIMH (R181). -/
  | timh (l : LaneId) (rd : Reg)
  /-- CIXL (R181). -/
  | cixl (l : LaneId) (rd : Reg)
  /-- CIXH (R181). -/
  | cixh (l : LaneId) (rd : Reg)
  /-- FAIL (R181). -/
  | fail (l : LaneId) (rs1 : Reg)
  /-- ILLEGAL_INSTRUCTION (R145). -/
  | illegalInstruction (l : LaneId) (word : BitVec 32)
  /-- DEBUG_HALT (R54). -/
  | debugHalt (l : LaneId)
  /-- DEBUG_STEP (R53). -/
  | debugStep (l : LaneId)
  /-- DEBUG_RESUME (R54). -/
  | debugResume (l : LaneId)
  /-- DEBUG_REGISTER_WRITE (R54). -/
  | debugRegisterWrite (l : LaneId) (reg : DebugReg) (v : BitVec 32)
  /-- DEBUG_MEMORY_WRITE (R54). -/
  | debugMemoryWrite (l : LaneId) (addr : BitVec 32) (v : BitVec 32)
  /-- DEBUG_BREAKPOINT_SET (R53). -/
  | debugBreakpointSet (l : LaneId) (addr : BitVec 32)
  /-- BREAKPOINT_HIT (R53). -/
  | breakpointHit (l : LaneId)
  /-- IDCODE (R546). -/
  | idcode
  /-- BYPASS (R52). -/
  | bypass
  /-- PORT_LINK_CHANGE (R225). -/
  | portLinkChange (p : PortId) (up : Bool) (gigFull : Bool)
  /-- GUARDIAN_SELF_CHECK_FAIL (R253). -/
  | guardianSelfCheckFail (p : PortId)
  /-- SEAT_MAP_RECEIVED (R71). -/
  | seatMapReceived (t : TileId) (sender : LaneId) (map : SeatMap)
  /-- MSIX_MASK_CLEAR (R444). -/
  | msixMaskClear (h : HubId) (vec : Fin 16)
  /-- TELEMETRY_SAMPLE_PERIOD_END (R501). -/
  | telemetrySamplePeriodEnd (h : HubId) (stream : Fin 16)
  /-- FIELD_TEMP_MEASUREMENT (R341). -/
  | fieldTempMeasurement (t : TileId) (tempC : Int)
  /-- FLASH_WRITE_COMPLETE (R575). -/
  | flashWriteComplete (l : LaneId) (what : FlashWrite)
  deriving DecidableEq, Repr

end Sys2Proof
end

