-- ==== Sys2Proof/Decode.lean ====
section
/-! DEFINITION. Decoding: no row of the table of commands has bits, so `decodeTableWord` answers none; the words of
function-block code (R143-R145, R150-R182) are decoded and encoded here. -/

namespace Sys2Proof

/-- The command a word spells by the table's bits. No row of the table gives any bits (log 5). -/
def decodeTableWord (_nbits _w : Nat) : Option Instr := none

/-! ## Fields of a function-block word (R143) -/

/-- The major opcode, [31:26]. -/
def fOp (w : Word) : BitVec 6 := w.extractLsb' 26 6
/-- rd or source register, [25:21]. -/
def fRd (w : Word) : Reg := w.extractLsb' 21 5
/-- rs1, [20:16]. -/
def fRs1 (w : Word) : Reg := w.extractLsb' 16 5
/-- rs2, [15:11]. -/
def fRs2 (w : Word) : Reg := w.extractLsb' 11 5
/-- func of family A, [10:0]. -/
def fFuncA (w : Word) : BitVec 11 := w.extractLsb' 0 11
/-- imm12, [15:4]. -/
def fImm12 (w : Word) : BitVec 12 := w.extractLsb' 4 12
/-- func of family B and sel of family D, [3:0]. -/
def fFuncB (w : Word) : BitVec 4 := w.extractLsb' 0 4
/-- imm20, [20:1]. -/
def fImm20 (w : Word) : BitVec 20 := w.extractLsb' 1 20
/-- func of family C, [0]. -/
def fFuncC (w : Word) : BitVec 1 := w.extractLsb' 0 1
/-- Point index, [20:4]. -/
def fPoint (w : Word) : BitVec 17 := w.extractLsb' 4 17
/-- func of family E, [25:22]. -/
def fFuncE (w : Word) : BitVec 4 := w.extractLsb' 22 4
/-- imm22, [21:0]. -/
def fImm22 (w : Word) : BitVec 22 := w.extractLsb' 0 22
/-- FB type id, [25:14]. -/
def fType (w : Word) : BitVec 12 := w.extractLsb' 14 12
/-- Instance offset, [13:0]. -/
def fOff (w : Word) : BitVec 14 := w.extractLsb' 0 14

/-! ## Decoding -/

/-- The ALU group (R150). -/
def decodeAlu (l : LaneId) (w : Word) : Option Instr :=
  let d := fRd w; let a := fRs1 w; let b := fRs2 w
  match (fFuncA w).toNat with
  | 0 => some (.add l d a b)
  | 1 => some (.sub l d a b)
  | 2 => some (.mul l d a b)
  | 3 => some (.div l d a b)
  | 4 => some (.mod l d a b)
  | 5 => some (.min l d a b)
  | 6 => some (.max l d a b)
  | 7 => if b = 0 then some (.abs l d a) else none
  | 16 => some (.and l d a b)
  | 17 => some (.or l d a b)
  | 18 => some (.xor l d a b)
  | 19 => some (.andn l d a b)
  | 20 => some (.shl l d a b)
  | 21 => some (.shr l d a b)
  | 22 => some (.sar l d a b)
  | 32 => some (.seq l d a b)
  | 33 => some (.sne l d a b)
  | 34 => some (.slt l d a b)
  | 35 => some (.sltu l d a b)
  | 36 => some (.sge l d a b)
  | 37 => some (.sgeu l d a b)
  | _ => none

/-- The ALUI group (R151); a shift needs imm[11:5] = 0 (R145). -/
def decodeAlui (l : LaneId) (w : Word) : Option Instr :=
  let d := fRd w; let a := fRs1 w; let i := fImm12 w
  match (fFuncB w).toNat with
  | 0 => some (.addi l d a i)
  | 1 => some (.andi l d a i)
  | 2 => some (.ori l d a i)
  | 3 => some (.xori l d a i)
  | 4 => if i.toNat < 32 then some (.shli l d a i) else none
  | 5 => if i.toNat < 32 then some (.shri l d a i) else none
  | 6 => if i.toNat < 32 then some (.sari l d a i) else none
  | 7 => some (.slti l d a i)
  | 8 => some (.sltiu l d a i)
  | 9 => some (.seqi l d a i)
  | 10 => some (.mini l d a i)
  | 11 => some (.maxi l d a i)
  | _ => none

/-- The LDST group (R153). -/
def decodeLdst (l : LaneId) (w : Word) : Option Instr :=
  let d := fRd w; let a := fRs1 w; let i := fImm12 w
  match (fFuncB w).toNat with
  | 0 => some (.ld l false d a i)
  | 1 => some (.ldh l false d a i)
  | 2 => some (.ldhu l false d a i)
  | 3 => some (.ldb l false d a i)
  | 4 => some (.ldbu l false d a i)
  | 5 => some (.st l false d a i)
  | 6 => some (.sth l false d a i)
  | 7 => some (.stb l false d a i)
  | 8 => some (.ld l true d a i)
  | 9 => some (.ldh l true d a i)
  | 10 => some (.ldhu l true d a i)
  | 11 => some (.ldb l true d a i)
  | 12 => some (.ldbu l true d a i)
  | 13 => some (.st l true d a i)
  | 14 => some (.sth l true d a i)
  | 15 => some (.stb l true d a i)
  | _ => none

/-- The BCC group (R156). -/
def decodeBcc (l : LaneId) (w : Word) : Option Instr :=
  let b := fRd w; let a := fRs1 w; let i := fImm12 w
  match (fFuncB w).toNat with
  | 0 => some (.beq l a b i)
  | 1 => some (.bne l a b i)
  | 2 => some (.blt l a b i)
  | 3 => some (.bge l a b i)
  | 4 => some (.bltu l a b i)
  | 5 => some (.bgeu l a b i)
  | _ => none

/-- The BLT group (R169); TET has rs1 field 0. -/
def decodeBlt (l : LaneId) (w : Word) : Option Instr :=
  let d := fRd w; let a := fRs1 w; let i := fImm12 w
  match (fFuncB w).toNat with
  | 0 => some (.ton l d a i)
  | 1 => some (.tof l d a i)
  | 2 => some (.tp l d a i)
  | 3 => if a = 0 then some (.tet l d i) else none
  | 4 => some (.ctu l d a i)
  | 5 => some (.ctd l d a i)
  | 6 => some (.ctud l d a i)
  | 7 => some (.rtrg l d a i)
  | 8 => some (.ftrg l d a i)
  | 9 => some (.sr l d a i)
  | 10 => some (.rs l d a i)
  | _ => none

/-- The SYS group (R160, R161, R165, R166, R168, R181); register fields not used must be 0 (R145). -/
def decodeSys (l : LaneId) (w : Word) : Option Instr :=
  let d := fRd w; let a := fRs1 w; let b := fRs2 w
  match (fFuncA w).toNat with
  | 0 => if d = 0 ∧ a = 0 ∧ b = 0 then some (.ret l) else none
  | 1 => if d = 0 then some (.icallr l a b) else none
  | 2 => if a = 0 ∧ b = 0 then some (.movib l d) else none
  | 3 => if a = 0 ∧ b = 0 then some (.timl l d) else none
  | 4 => if a = 0 ∧ b = 0 then some (.timh l d) else none
  | 5 => if a = 0 ∧ b = 0 then some (.cixl l d) else none
  | 6 => if a = 0 ∧ b = 0 then some (.cixh l d) else none
  | 7 => if d = 0 ∧ b = 0 then some (.fail l a) else none
  | 16 => if b = 0 then some (.pldx l d a 0) else none
  | 17 => if b = 0 then some (.pldx l d a 1) else none
  | 18 => if b = 0 then some (.pldx l d a 2) else none
  | 19 => if b = 0 then some (.pldx l d a 3) else none
  | 20 => if b = 0 then some (.pldx l d a 4) else none
  | 21 => if b = 0 then some (.pldx l d a 5) else none
  | 24 => if d = 0 then some (.pstx l a b 0) else none
  | 25 => if d = 0 then some (.pstx l a b 1) else none
  | 26 => if d = 0 then some (.pstx l a b 2) else none
  | _ => none

/-- The instruction a word of function-block code holds; none where the word is illegal (R144, R145). -/
def decodeFbWord (l : LaneId) (w : Word) : Option Instr :=
  match (fOp w).toNat with
  | 1 => decodeAlu l w
  | 2 => decodeAlui l w
  | 3 => decodeLdst l w
  | 4 => if fFuncC w = 0 then some (.lui l (fRd w) (fImm20 w)) else some (.li l (fRd w) (fImm20 w))
  | 5 => decodeBcc l w
  | 6 =>
    match (fFuncE w).toNat with
    | 0 => some (.jmp l (fImm22 w))
    | 1 => some (.jsr l (fImm22 w))
    | _ => none
  | 7 => some (.icall l (fType w) (fOff w))
  | 8 => if (fFuncB w).toNat ≤ 5 then some (.pld l (fRd w) (fPoint w) (fFuncB w)) else none
  | 9 => if (fFuncB w).toNat ≤ 2 then some (.pst l (fRd w) (fPoint w) (fFuncB w)) else none
  | 10 => decodeBlt l w
  | 11 =>
    if fRs1 w = 0 then
      match (fFuncB w).toNat with
      | 0 => some (.pmrd l (fRd w) (fImm12 w) false)
      | 1 => some (.pmrd l (fRd w) (fImm12 w) true)
      | _ => none
    else none
  | 12 => decodeSys l w
  | _ => none

/-! ## Encoding -/

/-- A word of family A (R143). -/
def famA (op : BitVec 6) (d a b : Reg) (f : BitVec 11) : Word := op ++ d ++ a ++ b ++ f
/-- A word of family B. -/
def famB (op : BitVec 6) (d a : Reg) (i : BitVec 12) (f : BitVec 4) : Word := op ++ d ++ a ++ i ++ f
/-- A word of family C. -/
def famC (op : BitVec 6) (d : Reg) (i : BitVec 20) (f : BitVec 1) : Word := op ++ d ++ i ++ f
/-- A word of family D. -/
def famD (op : BitVec 6) (d : Reg) (p : BitVec 17) (sel : BitVec 4) : Word := op ++ d ++ p ++ sel
/-- A word of family E. -/
def famE (op : BitVec 6) (f : BitVec 4) (i : BitVec 22) : Word := op ++ f ++ i
/-- A word of family F. -/
def famF (op : BitVec 6) (ty : BitVec 12) (o : BitVec 14) : Word := op ++ ty ++ o

/-- The word of a function-block instruction; none for a command that is no such instruction. -/
def encodeFb (i : Instr) : Option Word :=
  match i with
  | .add _ d a b => some (famA 1 d a b 0)
  | .sub _ d a b => some (famA 1 d a b 1)
  | .mul _ d a b => some (famA 1 d a b 2)
  | .div _ d a b => some (famA 1 d a b 3)
  | .mod _ d a b => some (famA 1 d a b 4)
  | .min _ d a b => some (famA 1 d a b 5)
  | .max _ d a b => some (famA 1 d a b 6)
  | .and _ d a b => some (famA 1 d a b 16)
  | .or _ d a b => some (famA 1 d a b 17)
  | .xor _ d a b => some (famA 1 d a b 18)
  | .andn _ d a b => some (famA 1 d a b 19)
  | .shl _ d a b => some (famA 1 d a b 20)
  | .shr _ d a b => some (famA 1 d a b 21)
  | .sar _ d a b => some (famA 1 d a b 22)
  | .seq _ d a b => some (famA 1 d a b 32)
  | .sne _ d a b => some (famA 1 d a b 33)
  | .slt _ d a b => some (famA 1 d a b 34)
  | .sltu _ d a b => some (famA 1 d a b 35)
  | .sge _ d a b => some (famA 1 d a b 36)
  | .sgeu _ d a b => some (famA 1 d a b 37)
  | .abs _ d a => some (famA 1 d a 0 7)
  | .addi _ d a i => some (famB 2 d a i 0)
  | .andi _ d a i => some (famB 2 d a i 1)
  | .ori _ d a i => some (famB 2 d a i 2)
  | .xori _ d a i => some (famB 2 d a i 3)
  | .shli _ d a i => some (famB 2 d a i 4)
  | .shri _ d a i => some (famB 2 d a i 5)
  | .sari _ d a i => some (famB 2 d a i 6)
  | .slti _ d a i => some (famB 2 d a i 7)
  | .sltiu _ d a i => some (famB 2 d a i 8)
  | .seqi _ d a i => some (famB 2 d a i 9)
  | .mini _ d a i => some (famB 2 d a i 10)
  | .maxi _ d a i => some (famB 2 d a i 11)
  | .lui _ d i => some (famC 4 d i 0)
  | .li _ d i => some (famC 4 d i 1)
  | .ld _ ib d a i => some (famB 3 d a i (if ib then 8 else 0))
  | .ldh _ ib d a i => some (famB 3 d a i (if ib then 9 else 1))
  | .ldhu _ ib d a i => some (famB 3 d a i (if ib then 10 else 2))
  | .ldb _ ib d a i => some (famB 3 d a i (if ib then 11 else 3))
  | .ldbu _ ib d a i => some (famB 3 d a i (if ib then 12 else 4))
  | .st _ ib d a i => some (famB 3 d a i (if ib then 13 else 5))
  | .sth _ ib d a i => some (famB 3 d a i (if ib then 14 else 6))
  | .stb _ ib d a i => some (famB 3 d a i (if ib then 15 else 7))
  | .beq _ a b i => some (famB 5 b a i 0)
  | .bne _ a b i => some (famB 5 b a i 1)
  | .blt _ a b i => some (famB 5 b a i 2)
  | .bge _ a b i => some (famB 5 b a i 3)
  | .bltu _ a b i => some (famB 5 b a i 4)
  | .bgeu _ a b i => some (famB 5 b a i 5)
  | .jmp _ i => some (famE 6 0 i)
  | .jsr _ i => some (famE 6 1 i)
  | .icall _ ty o => some (famF 7 ty o)
  | .icallr _ a b => some (famA 12 0 a b 1)
  | .ret _ => some (famA 12 0 0 0 0)
  | .movib _ d => some (famA 12 d 0 0 2)
  | .pld _ d p sel => some (famD 8 d p sel)
  | .pldx _ d a sel => some (famA 12 d a 0 (16 + sel.setWidth 11))
  | .pst _ r p sel => some (famD 9 r p sel)
  | .pstx _ a b sel => some (famA 12 0 a b (24 + sel.setWidth 11))
  | .ton _ d a i => some (famB 10 d a i 0)
  | .tof _ d a i => some (famB 10 d a i 1)
  | .tp _ d a i => some (famB 10 d a i 2)
  | .tet _ d i => some (famB 10 d 0 i 3)
  | .ctu _ d a i => some (famB 10 d a i 4)
  | .ctd _ d a i => some (famB 10 d a i 5)
  | .ctud _ d a i => some (famB 10 d a i 6)
  | .rtrg _ d a i => some (famB 10 d a i 7)
  | .ftrg _ d a i => some (famB 10 d a i 8)
  | .sr _ d a i => some (famB 10 d a i 9)
  | .rs _ d a i => some (famB 10 d a i 10)
  | .pmrd _ d i h => some (famB 11 d 0 i (if h then 1 else 0))
  | .timl _ d => some (famA 12 d 0 0 3)
  | .timh _ d => some (famA 12 d 0 0 4)
  | .cixl _ d => some (famA 12 d 0 0 5)
  | .cixh _ d => some (famA 12 d 0 0 6)
  | .fail _ a => some (famA 12 0 a 0 7)
  | _ => none

/-- The lane of a function-block command. -/
def fbLane (i : Instr) : LaneId :=
  match i with
  | .add l _ _ _ => l
  | .sub l _ _ _ => l
  | .mul l _ _ _ => l
  | .div l _ _ _ => l
  | .mod l _ _ _ => l
  | .min l _ _ _ => l
  | .max l _ _ _ => l
  | .and l _ _ _ => l
  | .or l _ _ _ => l
  | .xor l _ _ _ => l
  | .andn l _ _ _ => l
  | .shl l _ _ _ => l
  | .shr l _ _ _ => l
  | .sar l _ _ _ => l
  | .seq l _ _ _ => l
  | .sne l _ _ _ => l
  | .slt l _ _ _ => l
  | .sltu l _ _ _ => l
  | .sge l _ _ _ => l
  | .sgeu l _ _ _ => l
  | .abs l _ _ => l
  | .addi l _ _ _ => l
  | .andi l _ _ _ => l
  | .ori l _ _ _ => l
  | .xori l _ _ _ => l
  | .shli l _ _ _ => l
  | .shri l _ _ _ => l
  | .sari l _ _ _ => l
  | .slti l _ _ _ => l
  | .sltiu l _ _ _ => l
  | .seqi l _ _ _ => l
  | .mini l _ _ _ => l
  | .maxi l _ _ _ => l
  | .lui l _ _ => l
  | .li l _ _ => l
  | .ld l _ _ _ _ => l
  | .ldh l _ _ _ _ => l
  | .ldhu l _ _ _ _ => l
  | .ldb l _ _ _ _ => l
  | .ldbu l _ _ _ _ => l
  | .st l _ _ _ _ => l
  | .sth l _ _ _ _ => l
  | .stb l _ _ _ _ => l
  | .beq l _ _ _ => l
  | .bne l _ _ _ => l
  | .blt l _ _ _ => l
  | .bge l _ _ _ => l
  | .bltu l _ _ _ => l
  | .bgeu l _ _ _ => l
  | .jmp l _ => l
  | .jsr l _ => l
  | .icall l _ _ => l
  | .icallr l _ _ => l
  | .ret l => l
  | .movib l _ => l
  | .pld l _ _ _ => l
  | .pldx l _ _ _ => l
  | .pst l _ _ _ => l
  | .pstx l _ _ _ => l
  | .ton l _ _ _ => l
  | .tof l _ _ _ => l
  | .tp l _ _ _ => l
  | .tet l _ _ => l
  | .ctu l _ _ _ => l
  | .ctd l _ _ _ => l
  | .ctud l _ _ _ => l
  | .rtrg l _ _ _ => l
  | .ftrg l _ _ _ => l
  | .sr l _ _ _ => l
  | .rs l _ _ _ => l
  | .pmrd l _ _ _ => l
  | .timl l _ => l
  | .timh l _ => l
  | .cixl l _ => l
  | .cixh l _ => l
  | .fail l _ => l
  | _ => .l0

/-- A function-block instruction whose operands the encoding admits: a sel the tables list (R160, R161) and a shift
immediate with [11:5] = 0 (R145). -/
def wfFb (i : Instr) : Bool :=
  match i with
  | .shli _ _ _ imm => imm.toNat < 32
  | .shri _ _ _ imm => imm.toNat < 32
  | .sari _ _ _ imm => imm.toNat < 32
  | .pld _ _ _ sel => sel.toNat ≤ 5
  | .pldx _ _ _ sel => sel.toNat ≤ 5
  | .pst _ _ _ sel => sel.toNat ≤ 2
  | .pstx _ _ _ sel => sel.toNat ≤ 2
  | _ => true

/-- The opcodes of the command rings that R408 lists; every other one is reserved. -/
def listedOpcodes : List Nat :=
  [0x0000, 0x0101, 0x0102, 0x0103, 0x0104, 0x0105, 0x0106, 0x0201, 0x0202, 0x0203, 0x0204, 0x0301, 0x0302, 0x0303, 0x0401,
    0x0402, 0x0501, 0x0502, 0x0503, 0x0504, 0x0505, 0x0506, 0x0507, 0x0601, 0x0602, 0x0603, 0x0701, 0x0702, 0x0801, 0x0802,
    0x0803, 0x0901, 0x0902, 0x0903, 0x0904, 0x0905, 0x0906, 0x0A01, 0x0A02, 0x0A03, 0x0A04]

end Sys2Proof
end

