-- ==== Sys2Proof/Machine/State.lean ====
section
/-! DEFINITION. The state of the NX2403 as plain data: every register, buffer, counter, mode and pin the spec names,
the sealed configuration as a lane has parsed it, the queue of waiting commands, and the state in reset. -/

namespace Sys2Proof.Machine

open Sys2Proof

/-- A table by number, in rising order of its keys. -/
abbrev Tbl (α : Type) := List (Nat × α)

/-- A byte memory: cells in strictly rising address order, none of them 0; an unlisted byte reads as 0. -/
abbrev Mem := List Host.Cell

/-! ## Configuration tables (R189, R195, R196) -/

/-- A point record of table 8 (R196). -/
structure PointCfg where
  index : Nat := 0
  out   : Bool := false
  word  : Bool := false
  subst : BitVec 16 := 0
  deriving DecidableEq, Repr

/-- A station entry of table 7 with its point list (R196, R282). -/
structure StationCfg where
  addr       : Nat := 0
  vital      : Bool := false
  ctx        : Nat := 0
  dlLen      : Nat := 8
  ulLen      : Nat := 8
  silence    : Nat := 3
  quality    : Bool := false
  svcLen     : Nat := 0
  statePoint : Option Nat := none
  points     : List PointCfg := []
  deriving DecidableEq, Repr

/-- A slot of the round plan (R231); START and LENGTH in 10 ns units. -/
structure SlotCfg where
  start : Nat := 0
  kind  : Nat := 0
  len   : Nat := 0
  owner : Nat := 0
  deriving DecidableEq, Repr

/-- A channel configuration of table 12 (R195, R339). -/
structure ChanCfg where
  word : DWord := 0
  p0   : Option Nat := none
  p1   : Option Nat := none
  p2   : Option Nat := none
  ctx  : Nat := 0
  deriving DecidableEq, Repr

/-- A request channel of table 13. -/
structure ReqChan where
  ctx    : Nat := 0
  chan   : Nat := 0
  depth  : Nat := 1
  maxLen : Nat := 1
  deriving DecidableEq, Repr

/-- A cycle mark of table 14. -/
structure MarkCfg where
  ctx       : Nat := 0
  mark      : Nat := 0
  hostEvent : Bool := false
  hasTask   : Bool := false
  offUs     : Nat := 0
  deriving DecidableEq, Repr

/-- An exchange block of table 15. -/
structure XBlock where
  kind : Nat := 1
  ctx  : Nat := 0
  blk  : Nat := 0
  pub  : Nat := 0
  len  : Nat := 4
  off  : Nat := 0
  deriving DecidableEq, Repr

/-- A tunable or constant of table 16. -/
structure Tunable where
  ctx    : Nat := 0
  isSealed : Bool := false
  const  : Bool := false
  signed : Bool := false
  index  : Nat := 0
  off    : Nat := 0
  lower  : Word := 0
  upper  : Word := 0
  deriving DecidableEq, Repr

/-- A two-channel function of table 17 (R347). -/
structure FnCfg where
  fn      : Nat := 0
  ctx     : Nat := 0
  anti    : Bool := false
  chA     : Nat := 0
  chB     : Nat := 0
  demandA : Bool := false
  n       : Nat := 5
  point   : Nat := 0
  deriving DecidableEq, Repr

/-- A supervised drive of table 18 (R360). -/
structure DriveCfg where
  drv      : Nat := 0
  ctx      : Nat := 0
  permit   : Nat := 0
  ramp     : Nat := 0
  stoA     : Nat := 0
  stoB     : Nat := 0
  fbA      : Nat := 0
  fbB      : Nat := 0
  speed    : Nat := 0
  env      : List (Nat × Nat) := []
  still    : Nat := 0
  stillRds : Nat := 1
  tMax     : Nat := 10
  fbTime   : Nat := 5
  status   : Nat := 0
  deriving DecidableEq, Repr

/-- An entry of the context table of the code region (R189). -/
structure CtxCfg where
  num      : Nat := 0
  vital    : Bool := false
  present  : Bool := false
  period   : Nat := 0
  offset   : Nat := 0
  base     : Nat := 0
  size     : Nat := 0
  rootType : Nat := 0
  marks    : List (Nat × Nat) := []
  reqBuf   : Option Nat := none
  xIn      : Option Nat := none
  xOut     : Option Nat := none
  deriving DecidableEq, Repr

/-- What a lane has read from its loaded image: the image header, the context table and the tables of the sealed
configuration block (R187, R189, R194-R196). -/
structure Cfg where
  imageId     : DWord := 0
  magicOk     : Bool := false
  format      : Nat := 0
  safetyMajor : Nat := 0
  ctxs        : List CtxCfg := []
  benchPermit : Bool := false
  planId      : DWord := 0
  cfgBase     : Nat := 0x600000
  seatKeys    : List DWord := []
  knownAns    : List Word := []
  updateKey   : BitVec 256 := 0
  trims       : List Int := []
  roundTicks  : Nat := 100
  outputLead  : Nat := 400
  mac         : BitVec 48 := 0x034E58000000
  ethertype   : BitVec 16 := 0x88B5
  dlPackMax   : Nat := 896
  grantRoom   : Nat := 4
  owners      : List Nat := []
  spareRel    : Nat := 1000
  svcTimeout  : Nat := 100
  syncKey     : DWord := 0
  plan1       : List SlotCfg := []
  plan2       : List SlotCfg := []
  stations    : List StationCfg := []
  vitalIds    : List (Nat × DWord × DWord) := []
  tileWords   : Duo DWord := ⟨0, 0⟩
  chans       : List ChanCfg := []
  reqChans    : List ReqChan := []
  marks       : List MarkCfg := []
  xblocks     : List XBlock := []
  tunables    : List Tunable := []
  fns         : List FnCfg := []
  drives      : List DriveCfg := []
  badTable    : Bool := false
  deriving DecidableEq, Repr

/-! ## Function-block execution -/

/-- The machine state of a task (R138) with the cycle it belongs to; `mark` is none for the cyclic task, `late` the output
points it has been late at (R126). -/
structure Task where
  ctx   : Nat
  mark  : Option Nat := none
  pc    : Word
  ib    : Word
  x     : Vector Word 32 := Vector.replicate 32 0
  stack : List (Word × Word) := []
  now   : DWord := 0
  cyc   : DWord := 0
  late  : Nat := 0
  deriving DecidableEq, Repr

/-- An event the performance counters may count (R447): class, number of events, privilege bit number and address. -/
structure CtrEv where
  cls  : Nat
  n    : Nat
  priv : Nat
  addr : Option Word := none
  deriving DecidableEq, Repr

/-- What K does when it reaches an entry of the delay queue: an instruction, with the task it leaves (none ends the run);
work of the executive, which the model does not spell out by operation; or a debugger's action (R35, R54). -/
inductive DqAct where
  | code (after : Option Task)
  | exec
  | halt
  | step
  | resume
  | reg (r : DebugReg) (v : Word)
  | memory (a : Nat) (v : Word)
  deriving DecidableEq, Repr

/-- An entry of the delay queue: the number within the window of the operation it is tied to, the operations it covers,
what K does there, the values M obtained from memory or from outside for it, the items K will sign, each with its kind
(0 store, 1 branch, 2 outbound word), and the events K will count (R35-R39, R54, R449). -/
structure DqEntry where
  op    : Nat := 0
  ops   : Nat
  act   : DqAct := .exec
  ins   : List DWord := []
  items : List (Nat × DWord)
  evs   : List CtrEv
  deriving DecidableEq, Repr

/-- Context states (R129, R131). -/
inductive CtxSt where
  | absent | stopped | running | safeFault | safeOverrun
  deriving DecidableEq, Repr

/-- What a stamped action does (R19, R124, R130, R133, R301, R342, R363, R412). -/
inductive ActKind where
  | request (ctx chan : Nat) (payload : List Byte)
  | ctxStart (ctx : Nat)
  | ctxStop (ctx : Nat)
  | ctxRestart (ctx : Nat)
  | change (ctx : Nat) (chg : List (Nat × Word))
  | service (addr : Nat) (write : Bool) (param : BitVec 16) (data : List Byte) (len : Nat)
  | tileReset (t : TileId)
  | driveReset (d : Nat)
  | setting (sid : Nat) (v : Word)
  | factory
  deriving DecidableEq, Repr

/-- A stamped action: the hub that stamped it, its place in that hub's order, its tag and handle, and the cycle index
or round count it is stamped for. -/
structure Action where
  hub    : HubId
  order  : Nat
  tag    : Word
  handle : Word
  slot   : DWord
  kind   : ActKind
  deriving DecidableEq, Repr

/-- What a lane keeps of a context between instructions (R126-R131, R183, R109, R408). -/
structure CtxRun where
  st        : CtxSt := .absent
  lateRun   : Nat := 0
  lateCount : Nat := 0
  fault     : Nat := 0
  busy      : Bool := false
  owes      : Bool := false
  lateNow   : Bool := false
  skipped   : Bool := false
  fresh     : Bool := false
  safePub   : Bool := true
  cyc       : DWord := 0
  now       : DWord := 0
  held      : List Action := []
  pub       : Tbl (BitVec 16) := []
  blocks    : Tbl (List Byte) := []
  vals      : Tbl Word := []
  markSkips : Nat := 0
  deriving DecidableEq, Repr

/-- States of a two-channel function (R353). -/
inductive FnSt where
  | proofD | proofR | released | demand | discrepant | fault
  deriving DecidableEq, Repr

/-- A two-channel function in a lane (R353-R356): `entered` counts the samples of the latest boundary that brought it into FAULT,
and `moved` is the round whose boundary has been evaluated ahead by DISCREPANCY_LIMIT. -/
structure FnRun where
  st      : FnSt := .proofD
  c       : Nat := 0
  enable  : Bool := false
  entered : Nat := 0
  moved   : Option DWord := none
  deriving DecidableEq, Repr

/-- States of a supervised drive (R363, R364). -/
inductive DrvSt where
  | stopped | run | ss1 | stoWait | stoFault
  deriving DecidableEq, Repr

/-- A supervised drive in a lane (R362-R364, R369): `badA` and `badB` count the boundaries at which a feedback has shown 1 in
RUN; `rampSent` tells that the latest downlink build energised RAMP_POINT, `stopReq` that the owning context has restarted
since the latest boundary, and `moved` is the round whose boundary has been evaluated ahead by a DRIVE_* command. -/
structure DrvRun where
  st       : DrvSt := .stoWait
  cause    : Nat := 0
  t0       : Nat := 0
  rounds   : Nat := 0
  still    : Nat := 0
  lost     : Nat := 0
  badA     : Nat := 0
  badB     : Nat := 0
  permit0  : Bool := false
  entryCfg : Option DriveCfg := none
  fbOk     : Bool := false
  rampSent : Bool := false
  stopReq  : Bool := false
  moved    : Option DWord := none
  deriving DecidableEq, Repr

/-- An uplink a hub has passed to a lane for the round in progress (R239). -/
structure Upl where
  payload : List Byte
  seq     : Word
  deriving DecidableEq, Repr

/-- The copies of one station's uplink by channel: A through H0, B through H1. -/
structure UplPair where
  a : Option Upl := none
  b : Option Upl := none
  deriving DecidableEq, Repr

/-- A lane's view of a station (R289, R304). -/
structure StnView where
  state     : Nat := 0
  chA       : Bool := false
  chB       : Bool := false
  outSafe   : Bool := false
  localFlt  : Bool := false
  silent    : Bool := false
  dlAge     : Nat := 255
  ulAge     : Nat := 255
  codeFails : Nat := 0
  staleEvts : Nat := 0
  ctxSafe   : Bool := false
  conflicts : Nat := 0
  evented   : Bool := false
  heard     : Bool := false
  lastSeq   : Option Word := none
  sinceUp   : Nat := 0
  svcAns    : List Byte := []
  deriving DecidableEq, Repr

/-- A debounced change recorded in a snapshot (R350): offset in 5 µs units and the new value. -/
structure EdgeRec where
  off : Nat
  val : Bool
  deriving DecidableEq, Repr

/-- One channel of a tile snapshot (R313, R341, R350); `conds` holds the number of every CH_STATE that holds, of which the
status word shows the highest. -/
structure SnapChan where
  value   : Bool := false
  count   : Word := 0
  delta   : Int := 0
  status  : BitVec 16 := 0
  conds   : List Nat := []
  missing : Bool := false
  changes : List EdgeRec := []
  before  : Bool := false
  tooMany : Bool := false
  deriving DecidableEq, Repr

/-- A tile snapshot (R313). -/
structure Snapshot where
  round    : DWord := 0
  chans    : List SnapChan := []
  word     : DWord := 0
  mittenOk : Bool := true
  deriving DecidableEq, Repr

/-! ## Lane -/

/-- States of LANE_STATUS.STATE (R64). -/
inductive LaneSt where
  | boot | seated | spareSplit | sparePaired | joining | selfTest | retired | halted
  deriving DecidableEq, Repr

/-- Lane power states (R492). -/
inductive PowerSt where
  | active | pause | nap | doze
  deriving DecidableEq, Repr

/-- STATE of a Valuz channel (R380). -/
inductive ValuzSt where
  | idle | busy | done | error
  deriving DecidableEq, Repr

/-- A Valuz channel's registers (R380). -/
structure ValuzChan where
  start   : Word := 0
  startHi : Word := 0
  length  : Word := 0
  sq      : Word := 0
  poly    : Bool := false
  fold    : BitVec 2 := 0
  pad64   : Bool := false
  tag     : Word := 0
  key     : DWord := 0
  st      : ValuzSt := .idle
  err     : Nat := 0
  scanId  : BitVec 16 := 0
  result  : DWord := 0
  deriving DecidableEq, Repr

/-- A performance counter (R451, R454): 48-bit value, selection word, 48-bit reload, OVF. -/
structure PerfCtr where
  value  : BitVec 48 := 0
  sel    : Word := 0
  reload : BitVec 48 := 0
  ovf    : Bool := false
  deriving DecidableEq, Repr

/-- The counters of a lane with the ranges (R451, R452); `owed` holds the counters that have wrapped with OVF_SAMPLE and
whose sample is not written yet, with the master of the event where the model counted it (R457). -/
structure LaneCtrs where
  ctr     : Vector PerfCtr 16 := Vector.replicate 16 {}
  aStart  : Word := 0
  aEnd    : Word := 0
  bStart  : Word := 0
  bEnd    : Word := 0
  samples : Nat := 0
  dropped : Nat := 0
  owed    : List (Nat × Option Nat) := []
  deriving DecidableEq, Repr

/-- A lane's time base (R199-R212, R220). Rates in 0.1 ppm, intervals in ns, offsets in 10 ns. `comp0` and `comp1` are the
factory corrections of the two oscillators and `rate` the sum of the three layers on the active one, in 0.01 ppm (R199,
R200); `steered` tells that a mark
of its reference has come since the latest boundary, `ref` is the reference the lane last steered on, `resyncAt` the group time at which the bus was synchronised again and
`steerEnd` the one at which the steering after it ended (R220). -/
structure TimeBase where
  onSpare   : Bool := false
  failed0   : Bool := false
  failed1   : Bool := false
  compTemp  : Int := 25
  comp0     : Int := 0
  comp1     : Int := 0
  rate      : Int := 0
  rateCorr  : Int := 0
  rate0     : Int := 0
  rate1     : Int := 0
  offset    : Int := 0
  offRun    : Nat := 0
  meas0     : Nat := 0
  meas1     : Nat := 0
  heard     : Tbl Nat := []
  src       : Option MarkSource := none
  steered   : Bool := false
  ref       : Option MarkSource := none
  resyncAt  : Option Nat := none
  steerEnd  : Option Nat := none
  switchDue : Bool := false
  deriving DecidableEq, Repr

/-- A full self-test in progress (R46, R47): cores whose result has not come, what started it (a fence, a command, a
failed join), whether it is the rerun of an aborted one (R533), and the commands that wait for it. -/
structure SelfTestRun where
  running : Bool := false
  again   : Bool := false
  lateM   : Bool := false
  lateK   : Bool := false
  fenced  : Bool := false
  cmd     : Bool := false
  joiner  : Bool := false
  tags    : List (HubId × Word) := []
  deriving DecidableEq, Repr

/-- One copy of a lane's active-bank record (R484): the active bank (false A, true B), sequence and CRC verdict. -/
structure BankRec where
  bankB : Bool := false
  sq    : Nat := 0
  valid : Bool := true
  deriving DecidableEq, Repr

/-- One flash image bank (R466): its content as bytes, the content length and the recorded hash; none recorded means
the bank holds no content. `major` and `sfmt` are the firmware safety-major and settings-format versions of the package
that wrote it (R465); none for content the module was shipped with. -/
structure Bank where
  len  : Nat := 0
  data : Mem := []
  hash : Option (BitVec 256) := none
  major : Option (BitVec 16) := none
  sfmt  : Option (BitVec 16) := none
  deriving DecidableEq, Repr

/-- A seal record (R373). -/
structure SealRec where
  hat   : DWord
  round : DWord
  deriving DecidableEq, Repr

/-- One copy of the saved settings (R514). -/
structure SavedSet where
  vals  : Tbl Word := []
  sq    : Nat := 0
  valid : Bool := true
  deriving DecidableEq, Repr

/-- A diagnostic record (R530, R531): DKIND, record number, round count and argument bytes. -/
structure Diag where
  kind  : Nat
  num   : Nat
  round : DWord
  args  : List Byte
  deriving DecidableEq, Repr

/-- The fields of an Oculley header (R465), with its bytes. -/
structure OcHdr where
  raw       : List Byte := []
  settings  : Nat := 0
  safety    : Nat := 0
  revertOk  : Bool := false
  needFull  : Bool := false
  hubFw     : Bool := false
  atStart   : Bool := false
  toHash    : BitVec 256 := 0
  toHat     : DWord := 0
  toImage   : DWord := 0
  notBefore : DWord := 0
  blocks    : Nat := 0
  maxBlock  : Nat := 0
  toLen     : Nat := 0
  actOps    : Nat := 0
  deriving DecidableEq, Repr

/-- Update session states (R489, R490). -/
inductive SessSt where
  | download | applying | verifying | verified | planned | probation | failed
  deriving DecidableEq, Repr

/-- An update session (R468-R490). -/
structure Session where
  st      : SessSt := .download
  hdr     : OcHdr := {}
  handle  : Word := 0
  hub     : HubId := .h0
  next    : Nat := 0
  expHash : BitVec 256 := 0
  act     : DWord := 0
  cause   : Nat := 0
  vTag    : Option (HubId × Word) := none
  cTag    : Option (HubId × Word) := none
  deriving DecidableEq, Repr

/-- A lane's part in an update session (R470-R473, R490): blocks missed, LANE_STATE and verdict. -/
structure LaneUpd where
  missed  : Bool := false
  st      : Nat := 0
  verdict : Option Nat := none
  deriving DecidableEq, Repr

/-- What a lane's flash keeps across power cycles (R48, R412, R484, R507-R509, R520, R530). -/
structure LaneNv where
  retire     : Nat := 0
  startCount : Nat := 0
  verdict    : Nat := 0
  mismatches : Nat := 0
  sealRec    : Option SealRec := none
  sealOld    : Option SealRec := none
  rec0       : BankRec := {}
  rec1       : BankRec := {}
  bankA      : Bank := {}
  bankB      : Bank := {}
  probation  : Bool := false
  set0       : SavedSet := {}
  set1       : SavedSet := {}
  setFormat  : Nat := 0
  roundHwm   : Nat := 0
  spareRec   : Option LaneId := none
  closed     : Bool := false
  diag       : List Diag := []
  diagCount  : Nat := 0
  sess       : Option Session := none
  staged     : List (List Byte) := []
  lostCh     : List Nat := []
  cuffHeld   : List Nat := []
  upSeq      : Tbl (Word × Nat) := []
  remap      : Tbl Nat := []
  spareUsed  : Nat := 0
  eraseMax   : Nat := 0
  repairs    : Tbl Nat := []
  flagged    : List Nat := []
  findings   : List (Nat × Nat) := []
  hours      : Nat := 0
  paceDays   : List Nat := []
  deriving DecidableEq, Repr

/-- Factory contents of a lane's OTP (R47, R512): each core's expected self-test result. -/
structure LaneOtp where
  expM : DWord := 0
  expK : DWord := 0
  deriving DecidableEq, Repr

/-- The lane's part of the scrub in progress (R385-R388): the region, its snapshot, the words stored since, the lane's
result, the others' results, and a repair on its way with its sender. -/
structure ScrubLane where
  region  : Option Nat := none
  snap    : Mem := []
  marked  : List Nat := []
  result  : Option DWord := none
  heard   : Tbl DWord := []
  repair  : Option (LaneId × Mem) := none
  deriving DecidableEq, Repr

/-- What an instruction that passes its checks does: the machine state after it (none when it ends the run), its
weight, the bytes it stores in order, the items both cores sign, the events counted and the values it takes from memory or
from outside. -/
structure FbDone where
  task   : Option Task
  weight : Nat
  stores : List (Nat × Byte) := []
  items  : List (Nat × DWord) := []
  evs    : List CtrEv := []
  ins    : List DWord := []
  deriving DecidableEq, Repr

/-- An instruction whose store waits for a staged block to leave the source (R85): the task before it and its effect. -/
structure StoreWait where
  task : Task
  done : FbDone
  deriving DecidableEq, Repr

/-- The debugger's state in a lane (R53-R56). -/
structure DebugSt where
  halted  : Bool := false
  stepArm : Bool := false
  bps     : List Word := []
  deriving DecidableEq, Repr

/-- A flash write in progress that a command waits for (R575): what is written, for which command, the settings to save
or the block to journal. -/
structure PendWrite where
  what : FlashWrite
  hub  : HubId
  tag  : Word
  vals : Tbl Word := []
  data : List Byte := []
  deriving DecidableEq, Repr

/-- A lane: its pair, SRAM, executive state, time base, engines, power state and flash. `cur` is the task M runs with its
registers, `kCur` the same of K as far as K has come; `fenced` holds from a fence to the verdict, `fencedAt` the round of
the latest fence. `flashNv` is what the flash holds while the journal is closed: every write of `nv` since then is deferred (R544). -/
structure Lane where
  st        : LaneSt := .boot
  unlocked  : Bool := false
  verdict   : Nat := 0
  fenceCause : Nat := 0
  prefSeat  : Nat := 0
  pace      : Nat := 0
  paceLow   : Bool := false
  paceGood  : Nat := 0
  temp      : Int := 0
  vcore     : Nat := 0
  mismatch  : Nat := 0
  reverts   : List Nat := []
  supplyOk  : Bool := true
  supplyFences : List Nat := []
  fenced    : Bool := false
  fencedAt  : DWord := 0
  gatesOn   : Bool := false
  hubWords  : Bool := false
  loaded    : Bool := false
  barred    : Bool := false
  hat       : DWord := 0
  imgOk     : Bool := false
  awaitCopy : Bool := false
  rewrote   : Bool := false
  verified  : Bool := true
  returning : Bool := false
  spareSince : Nat := 0
  splitPend : Bool := false
  unsplit   : Bool := false
  split     : List SplitTask := []
  sigM      : DWord := 0
  sigK      : DWord := 0
  winOps    : Nat := 0
  dq        : List DqEntry := []
  kCur      : Option Task := none
  kHalted   : Bool := false
  outBuf    : Mem := []
  gates     : Duo (Option GateFrame) := ⟨none, none⟩
  opsCount  : Nat := 0
  mem       : Mem := []
  cur       : Option Task := none
  susp      : List Task := []
  wait      : Option StoreWait := none
  cfg       : Cfg := {}
  ctxs      : Tbl CtxRun := []
  fns       : Tbl FnRun := []
  drvs      : Tbl DrvRun := []
  stn       : Tbl StnView := []
  upl       : Tbl UplPair := []
  claims    : List (Nat × UplinkFrame) := []
  snap0     : Option Snapshot := none
  snap1     : Option Snapshot := none
  snapMiss  : Duo (Option DWord) := ⟨none, none⟩
  snapAge0  : Nat := 255
  snapAge1  : Nat := 255
  contribs  : List Contribution := []
  own       : List Contribution := []
  disregard : List LaneId := []
  resend    : List (Nat × DWord × SeatId) := []
  prove     : Bool := false
  proveSoon : Bool := false
  map       : SeatMap := ⟨none, none, none⟩
  bgDone    : Tbl Nat := []
  selfTest  : SelfTestRun := {}
  tb        : TimeBase := {}
  power     : PowerSt := .active
  journal   : Bool := true
  writes    : List PendWrite := []
  valuz     : Vector ValuzChan 4 := Vector.replicate 4 {}
  ctrs      : LaneCtrs := {}
  dbg       : DebugSt := {}
  scrub     : ScrubLane := {}
  inUse     : List Nat := []
  tlmStep   : Nat := 1
  tlmCalm   : Nat := 0
  upd       : LaneUpd := {}
  nv        : LaneNv := {}
  flashNv   : Option LaneNv := none
  otp       : LaneOtp := {}
  deriving DecidableEq, Repr

/-! ## Group -/

/-- Group states (R100, R104). -/
inductive GState where
  | forming | full | noSpare | degraded | safe
  deriving DecidableEq, Repr

/-- Kinds of join (R104). -/
inductive JoinKind where
  | fault | revert | rotation
  deriving DecidableEq, Repr

/-- The replicated executive state of a lane at a join boundary, as the membership messages carry it (R85). -/
structure ExecSnap where
  ctxs : Tbl CtxRun := []
  fns  : Tbl FnRun := []
  drvs : Tbl DrvRun := []
  stn  : Tbl StnView := []
  map  : SeatMap := ⟨none, none, none⟩
  deriving DecidableEq, Repr

/-- A join in progress (R82-R91): `step` is the step of R84 in progress; `b` the join boundary, `shadowAt` the
round whose boundary starts the shadow cycle; the memory, the tasks with their registers and the executive state taken at b;
the blocks not yet sent and those staged. -/
structure Join where
  kind     : JoinKind
  step     : Nat := 1
  joiner   : LaneId
  leaver   : Option LaneId := none
  srcLo    : Option LaneId := none
  srcHi    : Option LaneId := none
  start    : Nat := 0
  startUs  : Nat := 0
  startRd  : DWord := 0
  b        : DWord := 0
  snap     : Mem := []
  snapTasks : List Task := []
  snapExec : ExecSnap := {}
  unsent   : List Nat := []
  staged   : List Nat := []
  shadowAt : DWord := 0
  shadowOk : Bool := true
  fenceCyc : Option DWord := none
  cause    : Nat := 0
  tag      : Option (HubId × Word) := none
  deriving DecidableEq, Repr

/-- A handle that is open (R403-R410). -/
structure Handle where
  word   : Word
  hub    : HubId
  server : HubId
  obj    : CreateBlock
  subs   : List (Nat × Word) := []
  held   : Bool := false
  deriving DecidableEq, Repr

/-- A service request of a station channel (R299-R303). -/
structure SvcReq where
  write : Bool
  param : BitVec 16
  data  : List Byte
  len   : Nat
  hub   : HubId
  tag   : Word
  handle : Word
  round : DWord
  deriving DecidableEq, Repr

/-- The service state of a station (R300, R301). -/
structure SvcSt where
  sq    : BitVec 8 := 0
  queue : List SvcReq := []
  since : Option DWord := none
  deriving DecidableEq, Repr

/-- A granted spare slot (R247-R249). -/
structure Grant where
  seg    : Nat
  slot   : Nat
  addr   : Nat
  len    : Nat
  since  : DWord
  until_ : Option DWord := none
  silent : Nat := 0
  deriving DecidableEq, Repr

/-- A grant, refusal or revocation telegram that waits for room (R247, R251). -/
structure GrantMsg where
  addr   : Nat
  seg    : Nat
  revoke : Bool
  slot   : Nat
  len    : Nat
  deriving DecidableEq, Repr

/-- What a lane has sent over the straits and no receiver has taken yet (R16, R45, R75, R84, R208). -/
inductive StraitMsg where
  | fence (src : LaneId)
  | accuse (src : LaneId) (named : SeatId) (timeBase : Bool)
  | announce (joiner : LaneId)
  | contribution (src : LaneId) (cb : Contribution)
  | resend (src : LaneId) (seat : SeatId) (ctx : Nat) (cyc : DWord)
  | interval (src : LaneId) (ns : Nat)
  | mark (src : LaneId)
  | scrub (src : LaneId) (result : DWord)
  | newHat (src : LaneId) (hat : DWord)
  deriving DecidableEq, Repr

/-- The scrub of the group (R385-R388): the region that is next or in progress, the lanes it has repaired there, and the region of
the latest step (R502). -/
structure ScrubSt where
  pass    : Nat := 0
  region  : Nat := 0
  latest  : Nat := 0
  active  : Bool := false
  recheck : Bool := false
  repaired : List LaneId := []
  repeated : Bool := false
  nextAt  : Nat := 0
  deriving DecidableEq, Repr

/-- A running value of a setting that is stamped (R412). -/
structure Settings where
  holdoff  : Nat := 60
  rotDays  : Nat := 30
  pmuUser  : Bool := false
  isense   : Tbl Int := []
  format   : Nat := 0
  deriving DecidableEq, Repr

/-- The record of a command's tag that the lanes keep (R400, R441); `moved` marks one whose hub was lost since. -/
structure TagRec where
  tag     : Word
  opcode  : Nat
  handle  : Word := 0
  status  : Option Nat := none
  replied : Bool := false
  posted  : Bool := false
  stamped : Option DWord := none
  result  : List Byte := []
  done    : Bool := false
  moved   : Bool := false
  deriving DecidableEq, Repr

/-- The group: replicated executive state and the management state the lanes keep for the hubs. `gapFrom` is the moment of
the fence a switch-over gap counts from, in ticks and µs (R88); `prevSeats` the seat map before the latest seating, which
took effect at the boundary of round `seatedAt` (R75); `proveStep` and `proveNext` the rota of comparator proving
(R78); `rotD06` holds while an abandoned rotation waits for its 24 h under D-06 (R103, R104); `actBy` is the hub that
stamped the planned activation and its place in the stamp order (R19); `refIn` the hub whose marks are the reference since
the latest boundary and `refMix` a round whose comparison uses seat 1's messages (R201, R220). -/
structure Group where
  gst       : GState := .forming
  seats     : SeatMap := ⟨none, none, none⟩
  spare     : Option LaneId := none
  join      : Option Join := none
  safeCause : Nat := 0
  rotDeferred : Bool := false
  lastGap   : Nat := 0
  gapFrom   : Option (Nat × Nat) := none
  fences    : Nat := 0
  joinFails : Nat := 0
  rotFrom   : Nat := 0
  rotRetry  : Option Nat := none
  rotD06    : Bool := false
  prevSeats : SeatMap := ⟨none, none, none⟩
  seatedAt  : Nat := 0
  proveStep : Nat := 0
  proveNext : Nat := 0
  before    : Tbl SeatMap := []
  standIn   : Tbl LaneId := []
  holdoff   : List LaneId := []
  vacant    : Option LaneId := none
  revertDue : Option LaneId := none
  fenceLog  : List (LaneId × DWord) := []
  accuseLog : List (LaneId × SeatId × DWord) := []
  voted     : Option DWord := none
  voteKind  : Nat := 0
  round     : DWord := 0
  roundFixed : Bool := false
  roundSrc  : Nat := 0
  groupTime : DWord := 0
  firstBoundary : Bool := false
  firstVital : Bool := false
  adoptRound : Option DWord := none
  actions   : List Action := []
  order     : Nat := 0
  settings  : Settings := {}
  scrub     : ScrubSt := {}
  cfg       : Cfg := {}
  grants    : List Grant := []
  grantOut  : List GrantMsg := []
  claimsIgnored : Word := 0
  ownerIdx  : Nat := 0
  ownerQuiet : Tbl Nat := []
  svc       : Tbl SvcSt := []
  handles   : List Handle := []
  gens      : Tbl Nat := []
  startCount : Nat := 0
  session   : Option Session := none
  tags0     : List TagRec := []
  tags1     : List TagRec := []
  transit   : List StraitMsg := []
  straitSpare : List (LaneId × LaneId) := []
  straitFail : List (LaneId × LaneId) := []
  actAt     : Option DWord := none
  actBy     : HubId × Nat := (.h0, 0)
  refIn     : Option HubId := none
  refMix    : Bool := false
  deriving DecidableEq, Repr

/-! ## Hub -/

/-- An entry of a reply or event ring (R392, R398). -/
structure RingEntry where
  code   : Nat
  flags  : Nat := 0
  tag    : Word := 0
  handle : Word := 0
  status : Nat := 0
  data   : List Byte := []
  deriving DecidableEq, Repr

/-- A ring the hub writes (R391-R397): size exponent, base, indices, the entries the host has not consumed, the events
held while the rings do not run, and the drops not yet reported. -/
structure Ring where
  base  : DWord := 0
  n     : Nat := 4
  prod  : Word := 0
  cons  : Word := 0
  out   : List RingEntry := []
  held  : List RingEntry := []
  drops : Nat := 0
  deriving DecidableEq, Repr

/-- One class of the bridge at work (R428-R431): read requests outstanding with the completion space reserved for them, write
bursts held for link credits, and how its latest read and its latest write were cut, as addresses and lengths. -/
structure Pool where
  reads     : Nat := 0
  space     : Nat := 0
  writes    : Nat := 0
  lastRead  : List (Nat × Nat) := []
  lastWrite : List (Nat × Nat) := []
  deriving DecidableEq, Repr

/-- The pools of the five classes (R428). -/
structure Pools where
  command   : Pool := {}
  imageCopy : Pool := {}
  event     : Pool := {}
  bulk      : Pool := {}
  telemetry : Pool := {}
  deriving DecidableEq, Repr

/-- An MSI-X vector (R425, R426, R444): Mask, pending bit, moderation hold, entries written during the hold, messages sent. -/
structure Vec where
  mask    : Bool := true
  pending : Bool := false
  hold    : Bool := false
  again   : Bool := false
  sent    : Nat := 0
  deriving DecidableEq, Repr

/-- A signal mapping's publication state (R434, R435); `under` is what lay in the slot of publication p before it. -/
structure MapSt where
  handle  : Word
  ctx     : Nat
  minUs   : Nat
  base    : DWord
  points  : List Nat
  p       : Nat := 0
  lastAt  : Option Nat := none
  skipped : Nat := 0
  adopted : Bool := false
  active  : Bool := true
  slot0   : List Byte := []
  slot1   : List Byte := []
  under   : List Byte := []
  deriving DecidableEq, Repr

/-- A telemetry or diagnostic record (R437, R501). -/
structure TlmRec where
  kind   : Nat
  source : Nat
  round  : DWord
  body   : List Byte
  deriving DecidableEq, Repr

/-- A telemetry stream (R437, R501); `waiting` holds the records that wait for an item of the class (R429). -/
structure Stream where
  handle  : Word
  source  : Nat
  base    : DWord
  n       : Nat
  running : Bool := false
  period  : Nat := 0
  prod    : Word := 0
  cons    : Word := 0
  out     : List TlmRec := []
  latest  : List TlmRec := []
  waiting : List TlmRec := []
  drops   : Nat := 0
  deriving DecidableEq, Repr

/-- Node states of Brodxo (R264). -/
inductive NodeSt where
  | listen | leading | integrating | integrated
  deriving DecidableEq, Repr

/-- Guardian states (R253). -/
inductive GuardSt where
  | closed | listen | locked
  deriving DecidableEq, Repr

/-- A port's guardian (R253, R254, R276). -/
structure Guard where
  st       : GuardSt := .closed
  accepted : Nat := 0
  rejected : Nat := 0
  rejectNow : Bool := false
  isOpen   : Bool := false
  lastCold : Option Int := none
  dev      : Int := 0
  predNs   : Option Int := none
  lastNs   : Option Int := none
  history  : List (Int × Nat) := []
  values   : List (Nat × Int) := []
  deriving DecidableEq, Repr

/-- A frame a hub sends (R227, R234, R261, R262): its slot, its bytes from the destination address to the FCS, and when its
last byte leaves, in ns after the slot's START on the guardian's timeline. -/
structure TxFrame where
  slot   : Nat
  bytes  : List Byte
  endsNs : Int
  deriving DecidableEq, Repr

/-- A Brodxo port with its node state on that segment (R225, R229, R264-R277): `settled` tells that it has counted a round
since it took its boundary, `outbid` that the proposal it holds has replaced a lower one (R268). -/
structure Port where
  linkUp    : Bool := false
  toldDown  : Bool := false
  node      : NodeSt := .listen
  round     : DWord := 0
  known     : Bool := false
  boundaryNs : Int := 0
  attempt   : Nat := 0
  collisions : Nat := 0
  coldPhase : Bool := false
  settled   : Bool := false
  outbid    : Bool := false
  maxSeen   : DWord := 0
  leadFrom  : DWord := 0
  colds     : List (Nat × Int) := []
  collAt    : Option Int := none
  listenNs  : Int := 0
  heard     : Bool := false
  values    : List (Nat × Int) := []
  lastVals  : Nat := 0
  syncs     : List Nat := []
  lastSyncs : Nat := 0
  goodRds   : Nat := 0
  missRds   : Nat := 0
  fewRds    : Nat := 0
  quietRds  : Nat := 0
  corr      : Int := 0
  corrs     : List Int := []
  rate      : Int := 0
  txSeq     : Word := 0
  guard     : Guard := {}
  sending   : Option TxFrame := none
  sent      : List TxFrame := []
  discard   : Vector Word 16 := Vector.replicate 16 0
  deriving DecidableEq, Repr

/-- One seat's part of a station telegram (R236). -/
structure TeleShare where
  payload : List Byte
  share   : Word
  deriving DecidableEq, Repr

/-- A station telegram as the hub holds it for the next round (R234, R236). -/
structure Tele where
  addr : Nat
  kind : Nat
  sq   : Word
  s1   : Option TeleShare := none
  s2   : Option TeleShare := none
  s3   : Option TeleShare := none
  deriving DecidableEq, Repr

/-- A lane's status message to a hub (R65, R104): the words it builds at one moment. -/
structure StatusMsg where
  round : DWord
  lane  : DWord
  group : DWord
  tiles : Duo DWord
  chans : Duo (List (BitVec 16))
  ctxs  : Tbl DWord
  stns  : Tbl DWord
  op    : Nat
  major : Nat
  isSealed : Bool
  deriving DecidableEq, Repr

/-- The words of the status mirror in BAR0 (R423). -/
structure MirrorBlock where
  lanes : Quad DWord := ⟨0, 5, 2, 7⟩
  group : DWord := 0x804920
  tiles : Duo DWord := ⟨0, 1⟩
  deriving DecidableEq, Repr

/-- What a hub shows of the lanes (R64, R104, R131, R304, R341), with the Reset values of the words: lane numbers and
layouts, vacant seats, tile numbers. `shown` is the status mirror with its MIRROR_SEQ `sq` and MIRROR_ROUND `round`, which
follow once per round (R423). -/
structure Mirror where
  lanes : Quad DWord := ⟨0, 5, 2, 7⟩
  group : DWord := 0x804920
  tiles : Duo DWord := ⟨0, 1⟩
  chans : Duo (List (BitVec 16)) := ⟨List.replicate 16 0, List.replicate 16 0⟩
  ctxs  : Tbl DWord := []
  stns  : Tbl DWord := []
  shown : MirrorBlock := {}
  sq    : Word := 0
  round : DWord := 0
  msgs  : Quad (Option StatusMsg) := ⟨none, none, none, none⟩
  deriving DecidableEq, Repr

/-- The hub counter block but PORT_DISCARD (R424). -/
structure HubCounts where
  teleOmit  : Word := 0
  dmaError  : Word := 0
  mapSkip   : Word := 0
  evtDrops  : Word := 0
  tlmDrops  : Word := 0
  deriving DecidableEq, Repr

/-- A service read or other command that waits for its final reply (R303, R396). -/
structure Waiting where
  tag    : Word
  handle : Word
  opcode : Nat
  flags  : Nat := 0
  deriving DecidableEq, Repr

/-- An entry of the command ring that its hub has not fetched yet (R393, R396, R414): the header, the longest reply and the items it
needs room for, the opcode, and the command, none for an opcode that is unknown. -/
structure RingCmd where
  hd     : Hdr
  maxRep : Nat := 0
  items  : Nat := 1
  opcode : Nat
  cmd    : Option Instr
  deriving DecidableEq, Repr

/-- A hub. `ring` holds the entries of the command ring not fetched yet, the oldest first, and `due` that the command given next is
the one taken from its head; `draining` holds while RUNNING waits for replies to end: true after ENABLE went to 0, false after a failed
fetch (R394, R446); `adoptAt` the moment an adoption by this hub started (R439). -/
structure Hub where
  magic     : Word := 0x4E584842
  part      : BitVec 16 := 0x2403
  siRev     : BitVec 8 := 0xB1
  safetyMajor : BitVec 16 := 0
  isSealed  : Bool := false
  pools     : Pools := {}
  fwRunning : Bool := false
  syncSeq   : Word := 0
  markOut   : List LaneId := []
  fwVersion : Word := 0
  fwFlash   : Word := 0
  fwFlashOk : Bool := true
  fwNew     : Option Word := none
  fwDue     : Option Word := none
  flashStop : Bool := false
  phyReset  : Bool := true
  opState   : Nat := 1
  pcieUp    : Bool := false
  degraded  : Bool := false
  perstN    : Bool := false
  cmdBase   : DWord := 0
  cmdSize   : BitVec 4 := 4
  cmdCons   : Word := 0
  cmdProd   : Word := 0
  ring      : List RingCmd := []
  due       : Bool := false
  rplSize   : BitVec 4 := 4
  sevSize   : BitVec 4 := 4
  rpl       : Ring := {}
  sev       : Ring := {}
  enable    : Bool := false
  running   : Bool := false
  draining  : Option Bool := none
  shadow    : DWord := 0
  shadowOut : List Word := []
  evchCons  : Vector Word 64 := Vector.replicate 64 0
  evch      : Tbl Ring := []
  peerCons  : Vector Word 64 := Vector.replicate 64 0
  peerEvch  : Tbl Ring := []
  tlmCons   : Vector Word 16 := Vector.replicate 16 0
  streams   : Tbl Stream := []
  maps      : Tbl MapSt := []
  counts    : HubCounts := {}
  vecs      : Vector Vec 16 := Vector.replicate 16 {}
  moderation : Nat := 0
  peerAlive : Bool := false
  serving   : Bool := false
  reported  : Bool := false
  adoptions : BitVec 16 := 0
  adoptAt   : Option (Nat × Nat × DWord) := none
  lost      : Bool := false
  linkGone  : Bool := false
  pendRd    : List Waiting := []
  round     : DWord := 0
  outbox    : List Action := []
  mirror    : Mirror := {}
  lo        : Port := {}
  hi        : Port := {}
  tele      : Tbl Tele := []
  grantTele : List Tele := []
  passed    : Tbl (Word × Nat) := []
  gated     : List HubBlock := []
  valuz     : Vector ValuzChan 4 := Vector.replicate 4 {}
  ctrs      : Vector PerfCtr 8 := Vector.replicate 8 {}
  ctrOwed   : List Nat := []
  replays   : Nat := 0
  deriving DecidableEq, Repr

/-! ## Tile -/

/-- A glove test in progress (R328, R330): whether it is a dark pulse, as the state at its start has it, and whether something
has made it void. -/
structure TestRun where
  dark   : Bool
  isVoid : Bool := false
  deriving DecidableEq, Repr

/-- One channel of a tile (R308-R341). Couplers 0-2 are the seats', 3-6 the lanes' readback, 7 the spare. -/
structure Chan where
  deb      : Bool := false
  count    : Word := 0
  delta    : Int := 0
  changes  : List EdgeRec := []
  roundVal : Bool := false
  tooMany  : Bool := false
  chatCnt  : Nat := 0
  chatter  : Bool := false
  calm     : Nat := 0
  tpFail   : Bool := false
  threshold : Bool := false
  glove    : Bool := false
  overload : Bool := false
  extFeed  : Bool := false
  wired    : Option Nat := none
  lost     : Bool := false
  spareCpl : Option Nat := none
  failCpl  : List Nat := []
  pairOpen : BitVec 3 := 0
  offSeen  : Bool := false
  testing  : Option TestRun := none
  heldIn   : Bool := false
  deriving DecidableEq, Repr

/-- What a tile's drive stage keeps of a seat (R312, R313, R337). -/
structure SeatDrive where
  frame  : Option GateFrame := none
  silent : Nat := 0
  isSilent : Bool := false
  good   : Nat := 0
  struck : Bool := false
  heard  : Bool := false
  upper  : BitVec 16 := 0
  lower  : BitVec 16 := 0
  cuffs  : BitVec 2 := 0
  deriving DecidableEq, Repr

/-- A cuff group of a tile: the cuff and its L+ (R333-R336). -/
structure Cuff where
  closed  : Bool := false
  overcur : Bool := false
  forGood : Bool := false
  openFlt : Bool := false
  mv      : Nat := 24000
  low     : Bool := false
  code    : Nat := 0
  sag     : Bool := false
  okSince : Option Nat := none
  release : Bool := false
  deriving DecidableEq, Repr

/-- A field tile. -/
structure Tile where
  word      : DWord := 0
  chWords   : List DWord := List.replicate 16 0
  calOk     : Bool := true
  fieldUp   : Bool := false
  fieldTemp : Int := 0
  mittenMa  : BitVec 8 := 0
  discards  : Nat := 0
  stray     : Bool := false
  fieldRound : Option DWord := none
  boundary  : Option DWord := none
  map       : SeatMap := ⟨none, none, none⟩
  offered   : Quad (Option SeatMap) := ⟨none, none, none, none⟩
  newMap    : Option SeatMap := none
  seat1     : SeatDrive := {}
  seat2     : SeatDrive := {}
  seat3     : SeatDrive := {}
  taken     : List SnapChan := []
  logicSilent : Bool := true
  cuffs     : Duo Cuff := ⟨{}, {}⟩
  chans     : Vector Chan 16 := Vector.replicate 16 {}
  snap      : Option Snapshot := none
  deriving DecidableEq, Repr

/-! ## Module -/

/-- Operating states (R516). -/
inductive OpState where
  | bench | startUp | service | recovery | safe
  deriving DecidableEq, Repr

/-- The instruction the test access port holds (R52, R546). -/
inductive TapInstr where
  | idcode | bypass | debug
  deriving DecidableEq, Repr

/-- Pins, operating state and what the module as a whole keeps (R516-R518, R542-R546, R559). -/
structure Mod where
  pwrgd       : Bool := false
  pfailN      : Bool := true
  benchN      : Bool := true
  benchSample : Bool := false
  talertN     : Bool := true
  hot         : List Die := []
  tap         : TapInstr := .idcode
  tdo         : Word := 0
  op          : OpState := .startUp
  wasBench    : Bool := false
  activating  : Bool := false
  actFrom     : Nat := 0
  startMs     : Nat := 0
  stopCause   : Nat := 0
  restartCmd  : Option (HubId × Word) := none
  sessNote    : Nat := 0
  deriving DecidableEq, Repr

/-- The whole module. `pending` holds the waiting commands, first in first out; `free` is the model's own counter of
free values, no part of the hardware. -/
structure State where
  pending : List Instr := []
  free    : Nat := 0
  mod     : Mod := {}
  grp     : Group := {}
  lanes   : Quad Lane := ⟨{}, {}, {}, {}⟩
  hubs    : Duo Hub := ⟨{}, {}⟩
  tiles   : Duo Tile := ⟨{}, {}⟩
  deriving DecidableEq, Repr

/-- Why a step stops the machine with a fault. NO meaning of this model raises one: every behaviour of the spec is a
next state, context faults, fences and SAFE among them (safe: nothing stops early). -/
inductive Fault where
  /-- Raised by no meaning. -/
  | none
  deriving DecidableEq, Repr

/-- Why a step has no meaning. -/
inductive Refusal where
  /-- A command whose meaning is not written: raised by its arm of `exec` alone (safe: the run stops). -/
  | notModelled (mnemonic : String)
  deriving DecidableEq, Repr

/-- The module held in reset: PWRGD low (R542, R545), every register at its Reset value, nothing loaded, no command
waiting. Fields the spec gives no reset value stand in log entry 2. -/
def State.reset : State := {}

end Sys2Proof.Machine
end

