-- ==== Sys2Proof/Machine/Crc.lean ====
section
/-! DEFINITION. Byte order and the check values of the Valuz engine (R376-R378, R384): CRC-32C, CRC-64 and the seeds. -/

namespace Sys2Proof.Machine

open Sys2Proof

/-! ## Bytes -/

/-- The n bytes of a number, least significant first (R6, R141). -/
def leBytes : Nat → Nat → List Byte
  | 0, _ => []
  | n + 1, v => BitVec.ofNat 8 v :: leBytes n (v / 256)

/-- The n bytes of a number, most significant first. -/
def beBytes (n v : Nat) : List Byte := (leBytes n v).reverse

/-- The number whose bytes stand least significant first. -/
def leNat : List Byte → Nat
  | [] => 0
  | b :: r => b.toNat + 256 * leNat r

/-- The number whose bytes stand most significant first. -/
def beNat (bs : List Byte) : Nat := leNat bs.reverse

/-- n bytes of a list from an offset; bytes past the end read as 0. -/
def sliceBytes (bs : List Byte) (off n : Nat) : List Byte :=
  let got := (bs.drop off).take n
  got ++ List.replicate (n - got.length) 0

/-- The little-endian number in n bytes of a list from an offset. -/
def leAt (bs : List Byte) (off n : Nat) : Nat := leNat (sliceBytes bs off n)

/-- The two's complement value of the low w bits of a number. -/
def signedOf (w v : Nat) : Int := (BitVec.ofNat w v).toInt

/-- A number as a two's complement value in w bits. -/
def unsignedOf (w : Nat) (v : Int) : Nat := (BitVec.ofInt w v).toNat

/-! ## CRC -/

/-- One bit of the reflected CRC-32C register (R378). -/
def crc32Bit (r : Word) : Word := if r.getLsbD 0 then (r >>> 1) ^^^ 0x82F63B78 else r >>> 1

/-- One byte of CRC-32C. -/
def crc32Byte (r : Word) (b : Byte) : Word :=
  Nat.repeat crc32Bit 8 (r ^^^ b.setWidth 32)

/-- CRC-32C over bytes from a register value, with no final XOR (R378). -/
def crc32From (r : Word) (bs : List Byte) : Word := bs.foldl crc32Byte r

/-- One bit of the CRC-64 register, not reflected (R378). -/
def crc64Bit (r : DWord) : DWord := if r.getLsbD 63 then (r <<< 1) ^^^ 0x42F0E1EBA9EA3693 else r <<< 1

/-- One byte of CRC-64. -/
def crc64Byte (r : DWord) (b : Byte) : DWord :=
  Nat.repeat crc64Bit 8 (r ^^^ (b.setWidth 64 <<< 56))

/-- CRC-64 over bytes from a register value, with no final XOR. -/
def crc64From (r : DWord) (bs : List Byte) : DWord := bs.foldl crc64Byte r

/-- The 16-byte seed block (R377): KEY, fold word, SEQ, each MSB first. -/
def seedBlock (key : DWord) (fold sq : Word) : List Byte :=
  beBytes 8 key.toNat ++ beBytes 4 fold.toNat ++ beBytes 4 sq.toNat

/-- Bytes padded with 0 up to 64 (R240, R376). -/
def pad64 (bs : List Byte) : List Byte := bs ++ List.replicate (64 - bs.length) 0

/-- SEQ as the seed block carries it: below 64 bytes of effective length B1 drops bits [31:30] (R389, D-03). -/
def seedSeq (len : Nat) (sq : Word) : Word := if len < 64 then sq &&& 0x3FFFFFFF else sq

/-- A CRC-32C scan with a seed block (R377, R378): a share, a contribution code or a gate frame code (R384). -/
def crc32Fold (key : DWord) (fold sq : Word) (bs : List Byte) : Word :=
  ~~~ crc32From (crc32From (BitVec.allOnes 32) (seedBlock key fold (seedSeq bs.length sq))) bs

/-- A CRC-64 scan with a seed block: a station, SYNC or COLD_START code, a scrub result (R384). -/
def crc64Fold (key : DWord) (fold sq : Word) (bs : List Byte) : DWord :=
  ~~~ crc64From (crc64From (BitVec.allOnes 64) (seedBlock key fold (seedSeq bs.length sq))) bs

/-- CRC-64 with no seed block: the hat (R370). -/
def crc64Plain (bs : List Byte) : DWord := ~~~ crc64From (BitVec.allOnes 64) bs

/-- CRC-32C with no seed block. -/
def crc32Plain (bs : List Byte) : Word := ~~~ crc32From (BitVec.allOnes 32) bs

/-- The frame check sequence of IEEE 802.3 (R227), reflected, over the bytes from the destination address on. -/
def frameCheck (bs : List Byte) : Word :=
  let bit (r : Word) : Word := (r >>> 1) ^^^ (if r.getLsbD 0 then 0xEDB88320 else 0)
  ~~~ bs.foldl (fun r b => Nat.repeat bit 8 (r ^^^ b.setWidth 32)) (BitVec.allOnes 32)

/-- A fold word of a telegram (R242, R384): the station or node in bytes 8-9, the segment in byte 10 and the kind in
byte 11. -/
def foldWord (id seg kind : Nat) : Word := BitVec.ofNat 32 (id % 65536 * 65536 + seg % 256 * 256 + kind % 256)

end Sys2Proof.Machine
end

