-- ==== Sys2Proof/Machine/Sha.lean ====
section
/-! DEFINITION. SHA-256 and SHA-512 (FIPS 180-4) and Ed25519 verification (RFC 8032), which the update rules name (R465,
R473, R508). Their constants are those of the standards the spec cites. -/

namespace Sys2Proof.Machine

open Sys2Proof

/-! ## SHA-2 -/

/-- The constants of FIPS 180-4, four words of 64 bits in each number, the first word uppermost. -/
def quarters (n : Nat) : List (BitVec 64) :=
  [192, 128, 64, 0].map fun sh => BitVec.ofNat 64 (n >>> sh)

/-- The 80 round constants of SHA-512. -/
def sha512K : List (BitVec 64) :=
  ([0x428a2f98d728ae227137449123ef65cdb5c0fbcfec4d3b2fe9b5dba58189dbbc,
    0x3956c25bf348b53859f111f1b605d019923f82a4af194f9bab1c5ed5da6d8118,
    0xd807aa98a303024212835b0145706fbe243185be4ee4b28c550c7dc3d5ffb4e2,
    0x72be5d74f27b896f80deb1fe3b1696b19bdc06a725c71235c19bf174cf692694,
    0xe49b69c19ef14ad2efbe4786384f25e30fc19dc68b8cd5b5240ca1cc77ac9c65,
    0x2de92c6f592b02754a7484aa6ea6e4835cb0a9dcbd41fbd476f988da831153b5,
    0x983e5152ee66dfaba831c66d2db43210b00327c898fb213fbf597fc7beef0ee4,
    0xc6e00bf33da88fc2d5a79147930aa72506ca6351e003826f142929670a0e6e70,
    0x27b70a8546d22ffc2e1b21385c26c9264d2c6dfc5ac42aed53380d139d95b3df,
    0x650a73548baf63de766a0abb3c77b2a881c2c92e47edaee692722c851482353b] ++
   [0xa2bfe8a14cf10364a81a664bbc423001c24b8b70d0f89791c76c51a30654be30,
    0xd192e819d6ef5218d69906245565a910f40e35855771202a106aa07032bbd1b8,
    0x19a4c116b8d2d0c81e376c085141ab532748774cdf8eeb9934b0bcb5e19b48a8,
    0x391c0cb3c5c95a634ed8aa4ae3418acb5b9cca4f7763e373682e6ff3d6b2b8a3,
    0x748f82ee5defb2fc78a5636f43172f6084c87814a1f0ab728cc702081a6439ec,
    0x90befffa23631e28a4506cebde82bde9bef9a3f7b2c67915c67178f2e372532b,
    0xca273eceea26619cd186b8c721c0c207eada7dd6cde0eb1ef57d4f7fee6ed178,
    0x06f067aa72176fba0a637dc5a2c898a6113f9804bef90dae1b710b35131c471b,
    0x28db77f523047d8432caab7b40c724933c9ebe0a15c9bebc431d67c49c100d4c,
    0x4cc5d4becb3e42b6597f299cfc657e2a5fcb6fab3ad6faec6c44198c4a475817]).flatMap quarters

/-- The initial hash value of SHA-512. -/
def sha512H0 : List (BitVec 64) :=
  [0x6a09e667f3bcc908bb67ae8584caa73b3c6ef372fe94f82ba54ff53a5f1d36f1,
   0x510e527fade682d19b05688c2b3e6c1f1f83d9abfb41bd6b5be0cd19137e2179].flatMap quarters

/-- The upper half of a word: the constants of SHA-256 are the upper halves of those of SHA-512. -/
def upperHalf (x : BitVec 64) : BitVec 32 := BitVec.ofNat 32 (x.toNat / 2 ^ 32)

/-- One member of the SHA-2 family: its word in bytes, its round constants and initial value, and how far it rotates
(Σ0, Σ1) and rotates and shifts (σ0, σ1). -/
structure Sha2 (w : Nat) where
  bytes : Nat
  k     : List (BitVec w)
  init  : List (BitVec w)
  big0  : List Nat
  big1  : List Nat
  sml0  : List Nat × Nat
  sml1  : List Nat × Nat

/-- SHA-256. -/
def sha2x256 : Sha2 32 where
  bytes := 4
  k := (sha512K.take 64).map upperHalf
  init := sha512H0.map upperHalf
  big0 := [2, 13, 22]
  big1 := [6, 11, 25]
  sml0 := ([7, 18], 3)
  sml1 := ([17, 19], 10)

/-- SHA-512. -/
def sha2x512 : Sha2 64 where
  bytes := 8
  k := sha512K
  init := sha512H0
  big0 := [28, 34, 39]
  big1 := [14, 18, 41]
  sml0 := ([1, 8], 7)
  sml1 := ([19, 61], 6)

/-- The exclusive or of a word's rotations. -/
def rotations {w : Nat} (x : BitVec w) (by_ : List Nat) : BitVec w :=
  by_.foldl (fun acc n => acc ^^^ x.rotateRight n) 0

/-- A lower-case function: rotations and one shift. -/
def mixDown {w : Nat} (x : BitVec w) (f : List Nat × Nat) : BitVec w := rotations x f.1 ^^^ (x >>> f.2)

/-- The padded message: a 1 bit, zeros, and the bit length in two words, to a whole number of blocks of 16 words. -/
def shaPad (bytes : Nat) (bs : List Byte) : List Byte :=
  let used := bs.length + 1 + 2 * bytes
  let fill := (16 * bytes - used % (16 * bytes)) % (16 * bytes)
  bs ++ 0x80 :: List.replicate fill 0 ++ beBytes (2 * bytes) (8 * bs.length)

/-- The big-endian words of n bytes each. -/
def beWords (w n : Nat) : Nat → List Byte → List (BitVec w)
  | 0, _ => []
  | k + 1, bs => BitVec.ofNat w (beNat (bs.take n)) :: beWords w n k (bs.drop n)

/-- The eight working words after one round each for the remaining constants; `w16` holds the sixteen schedule words
from the present one on. -/
def shaRounds {w : Nat} (p : Sha2 w) : List (BitVec w) → List (BitVec w) → List (BitVec w) → List (BitVec w)
  | [], _, v => v
  | k :: ks, w16, v =>
    let at_ (l : List (BitVec w)) (i : Nat) : BitVec w := l[i]?.getD 0
    let later := at_ w16 0 + mixDown (at_ w16 1) p.sml0 + at_ w16 9 + mixDown (at_ w16 14) p.sml1
    let chosen := at_ v 6 ^^^ (at_ v 4 &&& (at_ v 5 ^^^ at_ v 6))
    let common := (at_ v 0 &&& (at_ v 1 ||| at_ v 2)) ||| (at_ v 1 &&& at_ v 2)
    let feed := k + at_ w16 0 + at_ v 7 + chosen + rotations (at_ v 4) p.big1
    let top := feed + common + rotations (at_ v 0) p.big0
    shaRounds p ks (w16.drop 1 ++ [later]) (top :: v.take 3 ++ (at_ v 3 + feed) :: (v.drop 4).take 3)

/-- n blocks of the padded message folded into the hash value. -/
def shaBlocks {w : Nat} (p : Sha2 w) : Nat → List (BitVec w) → List Byte → List (BitVec w)
  | 0, h, _ => h
  | n + 1, h, bs =>
    shaBlocks p n (h.zipWith (· + ·) (shaRounds p p.k (beWords w p.bytes 16 bs) h)) (bs.drop (16 * p.bytes))

/-- The hash of a byte string, as bytes. -/
def sha2 {w : Nat} (p : Sha2 w) (bs : List Byte) : List Byte :=
  let m := shaPad p.bytes bs
  (shaBlocks p (m.length / (16 * p.bytes)) p.init m).flatMap fun x => beBytes p.bytes x.toNat

/-- SHA-256 of a byte string, as its 32 bytes. -/
def sha256 (bs : List Byte) : List Byte := sha2 sha2x256 bs

/-- SHA-256 as a number whose bytes stand in order, the first the least significant (R6). -/
def sha256Num (bs : List Byte) : BitVec 256 := BitVec.ofNat 256 (leNat (sha256 bs))

/-- SHA-512 of a byte string, as its 64 bytes. -/
def sha512 (bs : List Byte) : List Byte := sha2 sha2x512 bs

/-! ## Ed25519 -/

/-- The field prime 2^255 − 19. -/
def edP : Nat := 2 ^ 255 - 19
/-- The order of the base point. -/
def edL : Nat := 2 ^ 252 + 27742317777372353535851937790883648493
/-- Modular power by squaring over the bits of the exponent, `fuel` of them. -/
def powMod (m : Nat) : Nat → Nat → Nat → Nat → Nat
  | 0, _, _, acc => acc
  | k + 1, b, e, acc => powMod m k (b * b % m) (e / 2) (if e % 2 = 1 then acc * b % m else acc)
/-- The inverse in the field. -/
def edInv (x : Nat) : Nat := powMod edP 256 x (edP - 2) 1
/-- The curve constant d = −121665 ÷ 121666. -/
def edD : Nat := (edP - 121665) * edInv 121666 % edP

/-- A point in extended homogeneous coordinates (X, Y, Z, T). -/
structure EdPoint where
  x : Nat
  y : Nat
  z : Nat
  t : Nat
  deriving DecidableEq, Repr

/-- Addition on the curve (RFC 8032, 5.1.4). -/
def edAdd (p q : EdPoint) : EdPoint :=
  let sub (a b : Nat) : Nat := (a + edP - b) % edP
  let a := sub p.y p.x * sub q.y q.x % edP
  let b := (p.y + p.x) % edP * ((q.y + q.x) % edP) % edP
  let c := 2 * p.t % edP * q.t % edP * edD % edP
  let d := 2 * p.z % edP * q.z % edP
  let e := sub b a
  let f := sub d c
  let g := (d + c) % edP
  let h := (b + a) % edP
  { x := e * f % edP, y := g * h % edP, z := f * g % edP, t := e * h % edP }

/-- The neutral point. -/
def edZero : EdPoint := { x := 0, y := 1, z := 1, t := 0 }

/-- Scalar multiplication over the bits of the scalar, `fuel` of them. -/
def edMul : Nat → Nat → EdPoint → EdPoint → EdPoint
  | 0, _, _, acc => acc
  | k + 1, n, p, acc => edMul k (n / 2) (edAdd p p) (if n % 2 = 1 then edAdd acc p else acc)

/-- Two points are equal. -/
def edEq (p q : EdPoint) : Bool :=
  p.x * q.z % edP == q.x * p.z % edP && p.y * q.z % edP == q.y * p.z % edP

/-- The x coordinate of a y coordinate and a sign bit (RFC 8032, 5.1.3). -/
def edRecoverX (y : Nat) (sign : Nat) : Option Nat :=
  if edP ≤ y then none
  else
    let x2 := (y * y + edP - 1) % edP * edInv ((edD * (y * y % edP) + 1) % edP) % edP
    if x2 = 0 then (if sign = 1 then none else some 0)
    else
      let r := powMod edP 256 x2 ((edP + 3) / 8) 1
      let r1 := if r * r % edP = x2 then r else r * powMod edP 256 2 ((edP - 1) / 4) 1 % edP
      if r1 * r1 % edP ≠ x2 then none
      else some (if r1 % 2 = sign then r1 else edP - r1)

/-- A compressed point of 32 bytes. -/
def edDecode (bs : List Byte) : Option EdPoint :=
  let n := leNat bs
  let y := n % 2 ^ 255
  (edRecoverX y (n / 2 ^ 255)).map fun x => { x := x, y := y, z := 1, t := x * y % edP }

/-- The base point. -/
def edBase : EdPoint :=
  let y := 4 * edInv 5 % edP
  let x := (edRecoverX y 0).getD 0
  { x := x, y := y, z := 1, t := x * y % edP }

/-- Ed25519 verification (RFC 8032, 5.1.7): public key of 32 bytes, message, signature of 64 bytes. -/
def edVerify (pub msg sig : List Byte) : Bool :=
  match edDecode pub, edDecode (sig.take 32) with
  | some a, some r =>
    let sc := leNat (sig.drop 32)
    if edL ≤ sc then false
    else
      let h := leNat (sha512 (sig.take 32 ++ pub ++ msg)) % edL
      edEq (edMul 256 sc edBase edZero) (edAdd r (edMul 256 h a edZero))
  | _, _ => false

end Sys2Proof.Machine
end

