-- ==== Sys2Proof/Config.lean ====
section
/-! DEFINITION. What an implementation fixes and the spec does not state, and the free values: constants without a body,
so that no proof can rest on a value of theirs (log entries 3 and 10-19). -/

namespace Sys2Proof

/-- A free choice: the bit a band of the spec leaves open (R541, R543, R544, R559), applied to the model's counter of
free values. -/
opaque Config.freeBit : Nat → Bool

/-- The free moment within a round, in µs, of an event whose moment no command gives, applied to the counter of free
values; the model takes it modulo the round length (log 20). -/
opaque Config.freeUs : Nat → Nat

/-- The node id of the module's H0 on the bus (R258): the spec does not say where a module holds it. -/
opaque Config.nodeH0 : Fin 64

/-- How far the node id of H1 lies above that of H0, less 1 and modulo 64: the two ids differ (R258). -/
opaque Config.nodeGap : Fin 63

/-- The source address of a port by its number (R227): the spec does not state it. -/
opaque Config.portMac : Nat → BitVec 48

/-- STATION_KEY of a non-vital station of the plan, by plan identity and address (R243): the plan holds it, and no table of
R195 has a field for it. -/
opaque Config.planKey : BitVec 64 → Nat → BitVec 64

/-- The measured load of a mitten rail in mA (R341), which no command gives, applied to the counter of free values. -/
opaque Config.mittenLoad : Nat → BitVec 8

/-- The temperature in °C that a tile's field side measures before its first snapshot (R341), which no command gives (log 140). -/
opaque Config.fieldTemp : Nat → Int

/-- A channel's node that the seats' commands do not drive stands above 8 V (R341): by the counter of free values and the
channel's number 0-31 (log 140). -/
opaque Config.nodeFed : Nat → Nat → Bool

/-- The events that a counter has counted and no command tells (R447-R450, R454), by the counter of free values, the counter's
number, a hub's from 16 on, and the operations of the lane's window (log 80). -/
opaque Config.unseenCount : Nat → Nat → Nat → Nat

/-- The negotiated max payload size of a hub's link: 128 bytes times this power of 2, at most the 512 bytes that the hub supports, and
1 for the default of 256 bytes (R416, R431; log 151). -/
opaque Config.payloadExp : Fin 3

/-- The max read request size of a hub's link: 128 bytes times this power of 2, never above 512 bytes (R416, R431; log 151). -/
opaque Config.readExp : Fin 3

/-- The vendor ID, stated in the product file (R416). -/
opaque Config.vendorId : BitVec 16

/-- A word the spec leaves open, applied to the counter of free values (R434). -/
opaque Config.freeWord : Nat → Word

/-- Room of the staging area of a copy source in 4 KiB blocks (R85): the spec gives no figure. -/
opaque Config.joinStaging : Nat

/-- The one non-vital context that an image names as the user of Valuz channel 3 (R381), by image identity: no table of the image
has a field for it (log 96). -/
opaque Config.valuzUser : BitVec 64 → Nat

/-- A scan of a hub's channels 0-2, by its start and length, stays within hub memory and hub flash (R381): the spec does not give
their addresses (log 146). -/
opaque Config.hubScanOk : Word → Word → Bool

/-- A 4 KiB block of a lane's self-test region holds live data (R388), by the counter of free values, lane and block number: the spec
does not lay the region out (log 52). -/
opaque Config.blockInUse : Nat → Nat → Nat → Bool

/-- The word of the self-test pattern at an address (R388): the spec does not state the pattern (log 52). -/
opaque Config.testWord : Nat → Word

/-- LOAD_PCT of a context (R131): Kacel's figure, which no table of the image carries. -/
opaque Config.loadPct : Nat → BitVec 8

/-- The fold of one signed item into a 64-bit signature (R39): signature, kind of item, item. The spec does not state
the function. -/
opaque Config.sigFold : DWord → Nat → DWord → DWord

/-- The cycle result signature over a byte string (R72): the spec does not state the function. -/
opaque Config.cycleSig : List Byte → DWord

/-- The pace normalised to 0.85 V and 25 °C from pace, core voltage in mV and temperature (R33): the factory
coefficients are not stated. -/
opaque Config.paceNorm : Nat → Nat → Int → Nat

/-- FW_VERSION of the hub firmware in its own flash copy (R421): stated in the product file. -/
opaque Config.hubFwVersion : Word

/-- The version a hub firmware image carries (R421, R466): the spec does not state where in the image it stands. -/
opaque Config.fwVersionOf : List Byte → Word

/-- The lane executive version in IDENTITY (R421): stated in the product file. -/
opaque Config.execVersion : Word

/-- The firmware safety-major version of the lane executive (R188, R370). -/
opaque Config.safetyMajor : BitVec 16

/-- The settings-format version of the firmware (R412, R514). -/
opaque Config.settingsFormat : BitVec 16

/-- The factory correction of an oscillator of a lane, in 0.01 ppm, from the lane number, which oscillator (true the spare)
and the junction temperature (R199): the coefficients in OTP are not stated. -/
opaque Config.oscComp : Nat → Bool → Int → Int

/-- PACE_EOL from a lane's daily normalised paces (R505): the worst-to-typ ratio in the OTP is not stated. -/
opaque Config.wearEol : List Nat → Nat

/-- YEARS_TO_LIMIT (false) and YEARS_TO_APP (true) from the daily normalised paces (R505). -/
opaque Config.wearYears : List Nat → Bool → Nat

end Sys2Proof
end

