-- ==== Sys2Proof/Machine/Ops.lean ====
section
/-! DEFINITION. The named operations over the state: tables, memory, access to lanes, hubs and tiles, rings, events,
interrupts, diagnostic records and telemetry records. -/

namespace Sys2Proof.Machine

open Sys2Proof

/-! ## Tables -/

/-- The entry of a key. -/
def tblGet {α : Type} : Tbl α → Nat → Option α
  | [], _ => none
  | (k, v) :: r, n => if k = n then some v else tblGet r n

/-- The entry of a key, or a default. -/
def tblGetD {α : Type} (t : Tbl α) (n : Nat) (d : α) : α := (tblGet t n).getD d

/-- A table with an entry set, keys rising. -/
def tblSet {α : Type} : Tbl α → Nat → α → Tbl α
  | [], n, x => [(n, x)]
  | (k, v) :: r, n, x =>
    if n < k then (n, x) :: (k, v) :: r else if n = k then (n, x) :: r else (k, v) :: tblSet r n x

/-- A table without a key. -/
def tblDel {α : Type} (t : Tbl α) (n : Nat) : Tbl α := t.filter fun e => e.1 != n

/-- The keys of a table rise strictly. -/
def tblWf {α : Type} : Tbl α → Bool
  | [] => true
  | [_] => true
  | (k, _) :: (k', v') :: r => k < k' && tblWf ((k', v') :: r)

/-! ## Memory -/

/-- The byte at an address; an unlisted byte reads as 0 (R574). -/
def memGet : Mem → Nat → Byte
  | [], _ => 0
  | (k, v) :: r, a => if k = a then v else memGet r a

/-- Memory with one byte written, in the canonical form. -/
def memPut : Mem → Nat → Byte → Mem
  | [], a, b => if b = 0 then [] else [(a, b)]
  | (k, v) :: r, a, b =>
    if a < k then (if b = 0 then (k, v) :: r else (a, b) :: (k, v) :: r)
    else if a = k then (if b = 0 then r else (a, b) :: r)
    else (k, v) :: memPut r a b

/-- Memory with bytes written from an address upward. -/
def memPutBytes (m : Mem) (a : Nat) : List Byte → Mem
  | [] => m
  | b :: r => memPutBytes (memPut m a b) (a + 1) r

/-- n bytes from an address. -/
def memBytes (m : Mem) (a : Nat) : Nat → List Byte
  | 0 => []
  | n + 1 => memGet m a :: memBytes m (a + 1) n

/-- The little-endian number in n bytes at an address (R141). -/
def memNat (m : Mem) (a n : Nat) : Nat := leNat (memBytes m a n)

/-- The word at an address. -/
def memWord (m : Mem) (a : Nat) : Word := BitVec.ofNat 32 (memNat m a 4)

/-- Memory with a word written. -/
def memPutWord (m : Mem) (a : Nat) (w : Word) : Mem := memPutBytes m a (leBytes 4 w.toNat)

/-- The canonical form: addresses rise strictly and no byte 0 is listed. -/
def memWf : Mem → Bool
  | [] => true
  | [(_, v)] => v != 0
  | (k, v) :: (k', v') :: r => v != 0 && k < k' && memWf ((k', v') :: r)

/-- The cells of a memory from lo up to, but not at, hi. -/
def memRange (m : Mem) (lo hi : Nat) : Mem := m.filter fun c => lo ≤ c.1 && c.1 < hi

/-- Memory with the cells from lo up to hi replaced by those of another memory. -/
def memCopy (dst src : Mem) (lo hi : Nat) : Mem :=
  dst.filter (fun c => c.1 < lo) ++ memRange src lo hi ++ dst.filter (fun c => hi ≤ c.1)

/-! ## Parts of the state -/

/-- The value of a lane. -/
def quadGet {α : Type} (q : Quad α) : LaneId → α
  | .l0 => q.l0
  | .l1 => q.l1
  | .l2 => q.l2
  | .l3 => q.l3

/-- A quad with the value of a lane set. -/
def quadSet {α : Type} (q : Quad α) (l : LaneId) (x : α) : Quad α :=
  match l with
  | .l0 => { q with l0 := x }
  | .l1 => { q with l1 := x }
  | .l2 => { q with l2 := x }
  | .l3 => { q with l3 := x }

/-- The number of a lane. -/
def laneNum : LaneId → Nat
  | .l0 => 0
  | .l1 => 1
  | .l2 => 2
  | .l3 => 3

/-- The lane of a number. -/
def laneOf? : Nat → Option LaneId
  | 0 => some .l0
  | 1 => some .l1
  | 2 => some .l2
  | 3 => some .l3
  | _ => none

/-- The four lanes in order. -/
def allLanes : List LaneId := [.l0, .l1, .l2, .l3]

/-- The other three lanes. -/
def otherLanes (l : LaneId) : List LaneId := allLanes.filter fun x => x != l

/-- The number of a hub. -/
def hubNum : HubId → Nat
  | .h0 => 0
  | .h1 => 1

/-- The other hub. -/
def peerHub : HubId → HubId
  | .h0 => .h1
  | .h1 => .h0

/-- The number of a tile. -/
def tileNum : TileId → Nat
  | .t0 => 0
  | .t1 => 1

/-- The tile of a number. -/
def tileOf? : Nat → Option TileId
  | 0 => some .t0
  | 1 => some .t1
  | _ => none

/-- The number of a seat, 1-3. -/
def seatNum : SeatId → Nat
  | .s1 => 1
  | .s2 => 2
  | .s3 => 3

/-- The three seats in order. -/
def allSeats : List SeatId := [.s1, .s2, .s3]

/-- A lane of the state. -/
def lane (s : State) (l : LaneId) : Lane := quadGet s.lanes l

/-- The state with a lane replaced. -/
def setLane (s : State) (l : LaneId) (L : Lane) : State := { s with lanes := quadSet s.lanes l L }

/-- The state with a lane changed. -/
def modLane (s : State) (l : LaneId) (f : Lane → Lane) : State := setLane s l (f (lane s l))

/-- The state with each of some lanes changed. -/
def modLanes (s : State) (ls : List LaneId) (f : LaneId → Lane → Lane) : State :=
  ls.foldl (fun s l => modLane s l (f l)) s

/-- A hub of the state. -/
def hub (s : State) : HubId → Hub
  | .h0 => s.hubs.a
  | .h1 => s.hubs.b

/-- The state with a hub replaced. -/
def setHub (s : State) (h : HubId) (H : Hub) : State :=
  match h with
  | .h0 => { s with hubs := { s.hubs with a := H } }
  | .h1 => { s with hubs := { s.hubs with b := H } }

/-- The state with a hub changed. -/
def modHub (s : State) (h : HubId) (f : Hub → Hub) : State := setHub s h (f (hub s h))

/-- A tile of the state. -/
def tile (s : State) : TileId → Tile
  | .t0 => s.tiles.a
  | .t1 => s.tiles.b

/-- The state with a tile replaced. -/
def setTile (s : State) (t : TileId) (T : Tile) : State :=
  match t with
  | .t0 => { s with tiles := { s.tiles with a := T } }
  | .t1 => { s with tiles := { s.tiles with b := T } }

/-- The state with a tile changed. -/
def modTile (s : State) (t : TileId) (f : Tile → Tile) : State := setTile s t (f (tile s t))

/-- A test in progress of a channel becomes void (R330). -/
def voidTest (c : Chan) : Chan := { c with testing := c.testing.map fun x => { x with isVoid := true } }

/-- Every test in progress becomes void: a seat has fenced (R330). -/
def voidTests (s : State) : State :=
  let f (T : Tile) : Tile := { T with chans := T.chans.map voidTest }
  modTile (modTile s .t0 f) .t1 f

/-- The state with the group changed. -/
def modGrp (s : State) (f : Group → Group) : State := { s with grp := f s.grp }

/-- A two-value record by position: false the lower number. -/
def duoGet {α : Type} (d : Duo α) (b : Bool) : α := if b then d.b else d.a

/-- A two-value record with one position set. -/
def duoSet {α : Type} (d : Duo α) (b : Bool) (x : α) : Duo α := if b then { d with b := x } else { d with a := x }

/-! ## Seats -/

/-- The lane of a seat in a seat map. -/
def seatLane (m : SeatMap) : SeatId → Option LaneId
  | .s1 => m.s1
  | .s2 => m.s2
  | .s3 => m.s3

/-- A seat map with a seat set. -/
def setSeat (m : SeatMap) (st : SeatId) (x : Option LaneId) : SeatMap :=
  match st with
  | .s1 => { m with s1 := x }
  | .s2 => { m with s2 := x }
  | .s3 => { m with s3 := x }

/-- The seat a lane holds. -/
def seatOf (m : SeatMap) (l : LaneId) : Option SeatId := allSeats.find? fun st => seatLane m st == some l

/-- The number of the seat a lane holds, 0 for none. -/
def seatNumOf (m : SeatMap) (l : LaneId) : Nat := (seatOf m l).elim 0 seatNum

/-- The seated lanes, lowest seat first. -/
def seatedLanes (m : SeatMap) : List LaneId := allSeats.filterMap (seatLane m)

/-- The seated lanes of the group. -/
def seated (s : State) : List LaneId := seatedLanes s.grp.seats

/-- A lane holds a seat. -/
def isSeated (s : State) (l : LaneId) : Bool := (seatOf s.grp.seats l).isSome

/-- The seat of a lane in the group. -/
def seatOfLane (s : State) (l : LaneId) : Option SeatId := seatOf s.grp.seats l

/-- Two lanes share a layout: L0 and L2 are east, L1 and L3 west (R14). -/
def isWest : LaneId → Bool
  | .l0 => false
  | .l1 => true
  | .l2 => false
  | .l3 => true

/-! ## Configuration look-ups -/

/-- The context table entry of a context that has code (R189); class 0 and context 0 have none. -/
def ctxCfg? (c : Cfg) (n : Nat) : Option CtxCfg := c.ctxs.find? fun x => x.num == n && x.present && n != 0

/-- Periods in rounds by code (R131, R189). -/
def periodRounds : Nat → Nat
  | 0 => 1
  | 1 => 2
  | 2 => 4
  | 3 => 5
  | 4 => 10
  | 5 => 20
  | 6 => 50
  | 7 => 100
  | _ => 1

/-- A cycle of the context starts at the boundary of a round (R111). -/
def startsAt (c : CtxCfg) (round : Nat) : Bool :=
  c.offset ≤ round && (round - c.offset) % periodRounds c.period == 0

/-- The cycle index of the cycle a round belongs to (R111). -/
def cycleIndex (c : CtxCfg) (round : Nat) : Nat := (round - c.offset) / periodRounds c.period

/-- The round at whose boundary a cycle starts. -/
def cycleRound (c : CtxCfg) (idx : Nat) : Nat := idx * periodRounds c.period + c.offset

/-- The round length in ticks of 100 µs; 0 in the configuration reads as 1, which Kacel never emits. -/
def roundTicks (s : State) : Nat := max 1 s.grp.cfg.roundTicks

/-- The longest vital context (R111); none in an image without one (R113). -/
def longestVital (c : Cfg) : Option CtxCfg :=
  (c.ctxs.filter fun x => x.vital && x.present && x.num != 0).foldl
    (fun best x => match best with
      | none => some x
      | some b => if periodRounds b.period < periodRounds x.period then some x else some b) none

/-- T in rounds (R111, R113). -/
def tRounds (c : Cfg) : Nat := (longestVital c).elim 1 fun x => periodRounds x.period

/-- The longest vital context starts a cycle at a round; without one, context 0 does at every round (R113). -/
def vitalStartsAt (c : Cfg) (round : Nat) : Bool := (longestVital c).elim true fun x => startsAt x round

/-- A context as a lane runs it. -/
def ctxRun (L : Lane) (n : Nat) : CtxRun := tblGetD L.ctxs n {}

/-- A lane with a context changed. -/
def modCtx (L : Lane) (n : Nat) (f : CtxRun → CtxRun) : Lane := { L with ctxs := tblSet L.ctxs n (f (ctxRun L n)) }

/-- The module is sealed: some lane holds a seal record (R373). -/
def isSealed (s : State) : Bool := allLanes.any fun l => (lane s l).nv.sealRec.isSome

/-- The powered state: commands other than POWER_GOOD act only while PWRGD is high (R543). -/
def whenOn (s : State) (f : State → State) : State := if s.mod.pwrgd then f s else s

/-! ## Counters (R450, R454-R456) -/

/-- The bits of a counter's selection word: ENABLE, CHAIN and OVF_SAMPLE (R451, R454). -/
structure CtrBits where
  en     : Nat
  chain  : Nat
  sample : Nat

/-- The bits of a lane counter's word (R451). -/
def laneBits : CtrBits := ⟨22, 23, 24⟩
/-- The bits of a hub counter's word (R454). -/
def hubBits : CtrBits := ⟨16, 17, 18⟩

/-- A count advanced by n, one at a time, and how often it wrapped: each wrap sets OVF and loads 0, or with OVF_SAMPLE the
reload, from which the rest goes on (R455, R456; DEDUCED, log 147). -/
def ctrAdd (c : PerfCtr) (sampleBit n : Nat) : PerfCtr × Nat :=
  let v := c.value.toNat + n
  if v < 2 ^ 48 then ({ c with value := BitVec.ofNat 48 v }, 0)
  else
    let base := if c.sel.getLsbD sampleBit then c.reload.toNat else 0
    let past := v - 2 ^ 48
    ({ c with ovf := true, value := BitVec.ofNat 48 (base + past % (2 ^ 48 - base)) }, 1 + past / (2 ^ 48 - base))

/-- Counter n of a list counts only the carries of the one before it: that one's CHAIN is set (R455). -/
def chainedTo (cs : List PerfCtr) (b : CtrBits) (n : Nat) : Bool :=
  n % 2 == 1 && (cs[n - 1]?).any fun c => c.sel.getLsbD b.chain

/-- A counter that owes a sample for each of its wraps (R456). -/
def ctrOwes (b : CtrBits) (c : PerfCtr) (n wraps : Nat) : List Nat :=
  if c.sel.getLsbD b.sample then List.replicate wraps n else []

/-- Counter n of some advanced by k, its carries into the next included where that one counts; and the counters that owe a
sample for it (R455, R456). -/
def ctrStep {m : Nat} (b : CtrBits) (cs : Vector PerfCtr m) (n k : Nat) : Vector PerfCtr m × List Nat :=
  match cs.toList[n]? with
  | none => (cs, [])
  | some c =>
    let x := ctrAdd c b.sample k
    let cs1 := cs.setIfInBounds n x.1
    let owed := ctrOwes b c n x.2
    if x.2 != 0 && chainedTo cs.toList b (n + 1) then
      match cs1.toList[n + 1]? with
      | none => (cs1, owed)
      | some d =>
        if d.sel.getLsbD b.en then
          let y := ctrAdd d b.sample x.2
          (cs1.setIfInBounds (n + 1) y.1, owed ++ ctrOwes b d (n + 1) y.2)
        else (cs1, owed)
    else (cs1, owed)

/-- What a change of a raw signal adds to a counter: its rising edges, both edges, or, as a level, nothing at the edge
itself (R450). -/
def rawEdges (mode rises falls : Nat) : Nat := if mode = 0 then rises else if mode = 1 then rises + falls else 0

/-- Hub counter n counts a class with a qualifier mask: ENABLE on, RAW off, the class selected, and for classes with a
qualifier its bit set (R454); the upper counter of a chained pair counts carries only (R455). -/
def hubCtrCounts (H : Hub) (n cls : Nat) (qual : Option Nat) : Bool :=
  let sel := (H.ctrs.toList[n]?.getD {}).sel
  sel.getLsbD 16 && !sel.getLsbD 9 && (sel.toNat % 16 == cls) && !chainedTo H.ctrs.toList hubBits n &&
    (match qual with
      | none => true
      | some q => sel.getLsbD (4 + q))

/-- One hub counter advanced, its carry into the next included. -/
def hubCtrStep (H : Hub) (n k : Nat) : Hub :=
  let x := ctrStep hubBits H.ctrs n k
  { H with ctrs := x.1, ctrOwed := H.ctrOwed ++ x.2 }

/-- The hub counts k events of a class (R454). -/
def hubCount (H : Hub) (cls k : Nat) (qual : Option Nat := none) : Hub :=
  (List.range 8).foldl (fun H n => if hubCtrCounts H n cls qual then hubCtrStep H n k else H) H

/-- Hub counter n counts a raw signal (R450, R454). -/
def hubRawCounts (H : Hub) (n src : Nat) : Bool :=
  let sel := (H.ctrs.toList[n]?.getD {}).sel
  sel.getLsbD 16 && sel.getLsbD 9 && (sel.toNat / 0x1000 % 16 == src) && !chainedTo H.ctrs.toList hubBits n

/-- A raw signal of a hub goes from one level to another: its edge is counted (R450). -/
def hubRaw (src : Nat) (old new : Bool) (H : Hub) : Hub :=
  if old == new then H
  else (List.range 8).foldl (fun H n =>
    if hubRawCounts H n src then
      hubCtrStep H n (rawEdges ((H.ctrs.toList[n]?.getD {}).sel.toNat / 0x400 % 4) new.toNat old.toNat)
    else H) H

/-- A hub counter counts what no command of this model tells (log 80): a level, the guardians, waiting items and the reference
oscillator of RAW; the cycles of the hub and the commits of its firmware core (R450, R454). -/
def hubUnseen (H : Hub) (n : Nat) : Bool :=
  let sel := (H.ctrs.toList[n]?.getD {}).sel
  let cls := sel.toNat % 16
  let mode := sel.toNat / 0x400 % 4
  let src := sel.toNat / 0x1000 % 16
  sel.getLsbD 16 && !chainedTo H.ctrs.toList hubBits n &&
    (if sel.getLsbD 9 then mode != 3 && src < 8 && (mode == 2 || [2, 3, 5, 7].contains src)
     else cls == 8 || cls == 9 || (cls == 7 && sel.toNat / 0x10 % 32 != 0))

/-- The value of hub counter n as read, with the events that no command tells (log 80). -/
def hubCtrValue (free : Nat) (H : Hub) (n : Nat) : BitVec 48 :=
  let v := (H.ctrs.toList[n]?.getD {}).value
  if hubUnseen H n then v + BitVec.ofNat 48 (Config.unseenCount free (16 + n) 0) else v

/-- A 32-bit counter advanced, saturating (R424). -/
def satInc (w : Word) (n : Nat := 1) : Word := BitVec.ofNat 32 (min (w.toNat + n) 0xFFFFFFFF)

/-! ## Interrupts (R425-R427, R444) -/

/-- A vector is one that moderation holds back (R426). -/
def moderated (v : Nat) : Bool := v != 2 && v != 3

/-- Vector v is raised: masked, it stays pending; moderated within the hold, it waits for the hold's end; else its
message is sent and, where moderated, a hold starts. `now` skips the hold, and its message starts the hold anew: with it the
vector is raised at most once more after m µs (R399, R426). -/
def raiseVec (H : Hub) (v : Nat) (now : Bool := false) : Hub :=
  match H.vecs.toList[v]? with
  | none => H
  | some x =>
    let y : Vec :=
      if x.mask then { x with pending := true }
      else if H.moderation > 0 && moderated v then
        if now then { x with sent := x.sent + 1, hold := true, again := false }
        else if x.hold then { x with again := true }
        else { x with sent := x.sent + 1, hold := true }
      else { x with sent := x.sent + 1 }
    { H with vecs := H.vecs.setIfInBounds v y }

/-! ## Buffer classes, items and bursts (R428-R431) -/

/-- The pool of a class. -/
def poolOf (H : Hub) : BufClass → Pool
  | .command => H.pools.command
  | .imageCopy => H.pools.imageCopy
  | .event => H.pools.event
  | .bulk => H.pools.bulk
  | .telemetry => H.pools.telemetry

/-- The clock of a block is gated or runs; the firmware core's is raw signal 6 (R450, R498). -/
def setGate (b : HubBlock) (gate : Bool) (H : Hub) : Hub :=
  let was := H.gated.contains b
  let H1 := { H with gated := if gate then (if was then H.gated else H.gated ++ [b]) else H.gated.filter (· != b) }
  if b = .firmware then hubRaw 6 was gate H1 else H1

/-- A gated block resumes when it has work (R498). -/
def ungate (b : HubBlock) (H : Hub) : Hub := setGate b false H

/-- A hub with the pool of a class changed; a class whose clock was gated resumes for it (R498). -/
def modPool (H : Hub) (c : BufClass) (f : Pool → Pool) : Hub :=
  { ungate (.cls c) H with pools := match c with
    | .command => { H.pools with command := f H.pools.command }
    | .imageCopy => { H.pools with imageCopy := f H.pools.imageCopy }
    | .event => { H.pools with event := f H.pools.event }
    | .bulk => { H.pools with bulk := f H.pools.bulk }
    | .telemetry => { H.pools with telemetry := f H.pools.telemetry } }

/-- A class's place in a QUAL mask (R454). -/
def classBit : BufClass → Nat
  | .command => 0
  | .imageCopy => 1
  | .event => 2
  | .bulk => 3
  | .telemetry => 4

/-- The five classes. -/
def bufClasses : List BufClass := [.command, .imageCopy, .event, .bulk, .telemetry]

/-- The items a class may always use (R428). -/
def reservedItems : BufClass → Nat
  | .command => 24
  | .imageCopy => 16
  | .event => 16
  | .bulk => 16
  | .telemetry => 8

/-- The tag records of a hub. -/
def tagsOf (g : Group) : HubId → List TagRec
  | .h0 => g.tags0
  | .h1 => g.tags1

/-- Commands of a hub that have not ended: fetched without a final reply, or posted without an outcome (R396, R429). -/
def inFlight (s : State) (h : HubId) : Nat := ((tagsOf s.grp h).filter fun r => !r.done && !r.moved).length

/-- An action that is a service read or write. -/
def serviceKind : ActKind → Bool
  | .service _ _ _ _ _ => true
  | _ => false

/-- The service reads and writes of a hub that are pending (R429). -/
def pendingServices (s : State) (h : HubId) : Nat :=
  ((s.grp.svc.flatMap fun e => e.2.queue.filter fun q => q.hub == h).length) +
    ((s.grp.actions ++ s.hubs.a.outbox ++ s.hubs.b.outbox).filter fun a => a.hub == h && serviceKind a.kind).length

/-- The items that a class of a hub asks for (R429). -/
def classItems (s : State) (h : HubId) (c : BufClass) : Nat :=
  let p := poolOf (hub s h) c
  p.reads + p.writes + (if c = .command then inFlight s h + pendingServices s h else 0)

/-- What n items of a class beyond its reserved ones would take of the 48 shared ones. -/
def sharedItems (c : BufClass) (n : Nat) : Nat := n - reservedItems c

/-- What the classes of a hub ask for of the shared items. -/
def sharedAsked (s : State) (h : HubId) : Nat := (bufClasses.map fun x => sharedItems x (classItems s h x)).foldl (· + ·) 0

/-- The items in flight in a hub, as INFLIGHT shows them: what the classes ask for of their reserved ones and of the 48 shared
ones; the rest, such as bursts held while the link is down, waits for an item (R421, R429). -/
def itemsInFlight (s : State) (h : HubId) : Nat :=
  (bufClasses.map fun x => min (classItems s h x) (reservedItems x)).foldl (· + ·) 0 + min 48 (sharedAsked s h)

/-- A class of a hub has n items free: reserved ones, or some of the 48 shared ones (R429). -/
def itemFree (s : State) (h : HubId) (c : BufClass) (n : Nat := 1) : Bool :=
  classItems s h c + n ≤ reservedItems c ||
    sharedAsked s h + (sharedItems c (classItems s h c + n) - sharedItems c (classItems s h c)) ≤ 48

/-- A transfer cut at each 4 KiB boundary and at a size limit, in ascending address order (R431); `n` bounds the number of
bursts. -/
def cutBursts (lim : Nat) : Nat → Nat → Nat → List (Nat × Nat)
  | 0, _, _ => []
  | n + 1, a, len =>
    if len = 0 then []
    else
      let k := max 1 (min len (min lim (4096 - a % 4096)))
      (a, k) :: cutBursts lim n (a + k) (len - k)

/-- Bytes a write burst carries at most (R431). -/
def maxWrite : Nat := 128 * 2 ^ Config.payloadExp.val

/-- Bytes a read request asks for at most (R431). -/
def maxRead : Nat := 128 * 2 ^ Config.readExp.val

/-- The bursts of u units of a ring of 2^n units from index i on: cut at the ring's wrap as well (R391, R431). -/
def ringBursts (lim : Nat) (base : DWord) (n : Nat) (i : Word) (u : Nat) : List (Nat × Nat) :=
  let off := i.toNat % 2 ^ n
  let first := min u (2 ^ n - off)
  cutBursts lim u (base.toNat + 64 * off) (64 * first) ++ cutBursts lim u base.toNat (64 * (u - first))

/-- Write bursts of a class, counted in class 4 (R454): posted, they go at once; while the link gives no credits, they are held
(R430). -/
def writeBursts (c : BufClass) (bs : List (Nat × Nat)) (H : Hub) : Hub :=
  if bs.isEmpty then H
  else
    let H1 := hubCount H 4 bs.length (some (classBit c))
    modPool H1 c fun p => { p with lastWrite := bs, writes := if H.pcieUp then p.writes else p.writes + bs.length }

/-- What was written to a ring, between two states of it. -/
def ringWrote (c : BufClass) (old new : Ring) (H : Hub) : Hub :=
  writeBursts c (ringBursts maxWrite old.base old.n old.prod (new.prod - old.prod).toNat) H

/-- A read of host memory that has ended: its requests counted in class 3 (R454); each had its completion space reserved first,
and none is outstanding any more (R430). -/
def readDone (c : BufClass) (bs : List (Nat × Nat)) (H : Hub) : Hub :=
  modPool (hubCount H 3 bs.length (some (classBit c))) c fun p => { p with lastRead := bs }

/-- A read of host memory of a class in progress: its first request is outstanding, and space for its whole completion is
reserved (R430). Each item has room for the largest completion (log 122). -/
def readOpen (c : BufClass) (bs : List (Nat × Nat)) (H : Hub) : Hub :=
  modPool (hubCount H 3 bs.length (some (classBit c))) c fun p =>
    { p with reads := min 1 bs.length, space := (bs.head?.map (·.2)).getD 0, lastRead := bs }

/-- No read of a class is outstanding. -/
def readClosed (c : BufClass) (H : Hub) : Hub := modPool H c fun p => { p with reads := 0, space := 0 }

/-- The words of the shadow block (R395): RPL_PROD, SEV_PROD and the producer index of each of the first 14 event
channels of the hub; an unset shadow address writes none. -/
def writeShadow (H : Hub) : Hub :=
  if H.shadow = 0 then H
  else
    let H1 := { H with shadowOut := H.rpl.prod :: H.sev.prod :: ((H.evch.take 14).map fun e => e.2.prod) }
    let H2 := hubCount H1 4 1 (some (classBit .event))
    if H.pcieUp then H2 else modPool H2 .event fun p => { p with writes := p.writes + 1 }

/-! ## Rings (R391-R397) -/

/-- Units an entry fills (R392). -/
def entryUnits (e : RingEntry) : Nat := (16 + e.data.length + 63) / 64

/-- Units a ring holds that the host has not consumed. -/
def ringUsed (r : Ring) : Nat := (r.prod - r.cons).toNat

/-- The units to fill with a NOP before an entry of u units (R392). -/
def ringPad (r : Ring) (u : Nat) : Nat :=
  let off := r.prod.toNat % 2 ^ r.n
  if off + u > 2 ^ r.n then 2 ^ r.n - off else 0

/-- A ring has room for an entry of u units. -/
def ringRoom (r : Ring) (u : Nat) : Bool := ringUsed r + ringPad r u + u ≤ 2 ^ r.n

/-- The NOP entry that fills p units (R392). -/
def nopEntry (p : Nat) : RingEntry := { code := 0, data := List.replicate (64 * p - 16) 0 }

/-- A ring with an entry written, after a NOP entry where it would wrap (R392). -/
def ringWrite (r : Ring) (e : RingEntry) : Ring :=
  let u := entryUnits e
  let p := ringPad r u
  { r with
    prod := r.prod + BitVec.ofNat 32 (p + u)
    out := r.out ++ (if p = 0 then [] else [nopEntry p]) ++ [e] }

/-- The EVENTS_LOST event with a count (R397, R411). -/
def lostEntry (round : DWord) (n : Nat) : RingEntry :=
  { code := 0x800B, data := leBytes 8 round.toNat ++ leBytes 4 n }

/-- A ring that has just got room: the drop count first, then the held events as room permits (R397). -/
def ringFlushHeld (r : Ring) : List RingEntry → Ring
  | [] => { r with held := [] }
  | e :: es => if ringRoom r (entryUnits e) then ringFlushHeld (ringWrite r e) es else { r with held := e :: es }

/-- The EVENTS_LOST event, when one is due and fits, and then the held events. -/
def ringDrain (r : Ring) (round : DWord) : Ring :=
  if r.drops = 0 then ringFlushHeld r r.held
  else
    let e := lostEntry round r.drops
    if ringRoom r (entryUnits e) then
      let r' := ringWrite { r with drops := 0 } e
      ringFlushHeld r' r'.held
    else r

/-- An event for a ring that the hub serves: what is due first, then the event if it fits; else it is dropped and
counted (R397). -/
def ringEvent (r : Ring) (round : DWord) (e : RingEntry) : Ring × Bool :=
  let r1 := ringDrain r round
  if r1.drops = 0 && r1.held.isEmpty && ringRoom r1 (entryUnits e) then (ringWrite r1 e, true)
  else ({ r1 with drops := r1.drops + 1 }, false)

/-- An event for a ring that is not served: held up to 256, then dropped and counted (R397). -/
def ringHold (r : Ring) (e : RingEntry) : Ring × Bool :=
  if r.held.length < 256 then ({ r with held := r.held ++ [e] }, true) else ({ r with drops := r.drops + 1 }, false)

/-- Entries of a ring still unread once the consumed index stands at c: the unread entries begin `used` units below the
producer index. -/
def dropRead (start c : Word) : List RingEntry → List RingEntry
  | [] => []
  | e :: es =>
    if (c - start).toNat < 2 ^ 31 && entryUnits e ≤ (c - start).toNat then
      dropRead (start + BitVec.ofNat 32 (entryUnits e)) c es
    else e :: es

/-- A ring with the host's consumed index written. -/
def ringConsume (r : Ring) (c : Word) : Ring :=
  let start := r.prod - BitVec.ofNat 32 ((r.out.map entryUnits).foldl (· + ·) 0)
  { r with cons := c, out := dropRead start c r.out }

/-! ## Events (R397, R410, R411) -/

/-- A hub writes its rings: its firmware runs and the lanes do not hold it lost. -/
def hubServes (H : Hub) : Bool := H.fwRunning && !H.lost

/-- The hub serves its rings (R394, R397): RUNNING, and ENABLE has not gone to 0 nor a fetch failed since. -/
def ringsOn (H : Hub) : Bool := H.running && H.enable && H.draining.isNone

/-- An event entry with its round count first (R411). -/
def eventEntry (round : DWord) (code : Nat) (tag handle : Word) (body : List Byte) : RingEntry :=
  { code := code, tag := tag, handle := handle, data := leBytes 8 round.toNat ++ body }

/-- A hub after one event entry was offered: drops counted, classes counted, the shadow and the vector. -/
def afterEvent (H : Hub) (written : Bool) (vec : Nat) : Hub :=
  if written then raiseVec (writeShadow (hubCount H 2 1)) vec
  else { H with counts := { H.counts with evtDrops := satInc H.counts.evtDrops } }

/-- An event for the system ring of a hub; `free` says that the event class has an item free, and without one it waits (R429). -/
def sysEvent (free : Bool) (H : Hub) (round : DWord) (e : RingEntry) : Hub :=
  if !hubServes H then H
  else if ringsOn H && free then
    let (r, w) := ringEvent H.sev round e
    ringWrote .event H.sev r (afterEvent { H with sev := r } w 1)
  else
    let (r, w) := ringHold H.sev e
    if w then { H with sev := r } else afterEvent { H with sev := r } false 1

/-- An event for an event channel that a hub serves: `peer` for a channel adopted from the other hub, `held` while that
one waits for its release (R443). -/
def chanEvent (free : Bool) (H : Hub) (round : DWord) (peer held : Bool) (idx : Nat) (e : RingEntry) : Hub :=
  if !hubServes H then H
  else
    let t := if peer then H.peerEvch else H.evch
    match tblGet t idx with
    | none => H
    | some r0 =>
      let put (H : Hub) (r : Ring) : Hub :=
        if peer then { H with peerEvch := tblSet H.peerEvch idx r } else { H with evch := tblSet H.evch idx r }
      if ringsOn H && !held && free then
        let (r, w) := ringEvent r0 round e
        ringWrote .event r0 r (afterEvent (put H r) w (4 + idx % 12))
      else
        let (r, w) := ringHold r0 e
        if w then put H r else afterEvent (put H r) false 0

/-- A handle's type, generation and index (R403). -/
def handleType (w : Word) : Nat := w.toNat / 2 ^ 28
/-- The generation of a handle. -/
def handleGen (w : Word) : Nat := w.toNat / 2 ^ 20 % 256
/-- The index of a handle. -/
def handleIdx (w : Word) : Nat := w.toNat % 2 ^ 20

/-- The selector that selects every object of a code (R410). -/
def selAll : Word := 0xFFFFFFFF

/-- The handle has a subscription that an event of a code about an object fits (R410). -/
def subscribed (hd : Handle) (code : Nat) (obj : Option Word) : Bool :=
  hd.subs.any fun x => x.1 == code && (x.2 == selAll || obj == some x.2)

/-- An event to every event channel subscribed to it, on the hub that serves the channel (R411). -/
def subsEvent (s : State) (code : Nat) (obj : Option Word) (e : RingEntry) : State :=
  s.grp.handles.foldl (fun s hd =>
    match hd.obj with
    | .eventCh _ _ =>
      if subscribed hd code obj then
        modHub s hd.server fun H =>
          chanEvent (itemFree s hd.server .event) H s.grp.round (hd.server != hd.hub) hd.held (handleIdx hd.word) e
      else s
    | _ => s) s

/-- An event with its system rings and its subscribers (R411). -/
def event (s : State) (sys : List HubId) (code : Nat) (obj : Option Word) (tag handle : Word) (body : List Byte) :
    State :=
  let e := eventEntry s.grp.round code tag handle body
  let s1 := sys.foldl (fun s h => modHub s h fun H => sysEvent (itemFree s h .event) H s.grp.round e) s
  subsEvent s1 code obj e

/-- Both hubs: the system rings of an event that belongs to the module (log 24). -/
def bothHubs : List HubId := [.h0, .h1]

/-! ## Telemetry and diagnostic records (R437, R501, R530, R531) -/

/-- A telemetry record fills these units. -/
def tlmUnits (r : TlmRec) : Nat := (16 + r.body.length + 63) / 64

/-- A telemetry ring has room for a record. -/
def tlmRoom (x : Stream) (r : TlmRec) : Bool :=
  let u := tlmUnits r
  let off := x.prod.toNat % 2 ^ x.n
  let p := if off + u > 2 ^ x.n then 2 ^ x.n - off else 0
  (x.prod - x.cons).toNat + p + u ≤ 2 ^ x.n

/-- A telemetry record written, after a NOP where it would wrap (R392, R437). -/
def tlmAppend (x : Stream) (r : TlmRec) : Stream :=
  let u := tlmUnits r
  let off := x.prod.toNat % 2 ^ x.n
  let p := if off + u > 2 ^ x.n then 2 ^ x.n - off else 0
  { x with prod := x.prod + BitVec.ofNat 32 (p + u), out := x.out ++ [r] }

/-- A record offered to a stream: after drops, a record of kind 0 with the drop count goes first (R437). -/
def tlmOffer (x : Stream) (r : TlmRec) : Stream × Bool :=
  if x.drops = 0 then
    if tlmRoom x r then (tlmAppend x r, true) else ({ x with drops := 1 }, false)
  else
    let d : TlmRec := { kind := 0, source := r.source, round := r.round, body := leBytes 4 x.drops }
    if tlmRoom x d then
      let x1 := tlmAppend { x with drops := 0 } d
      if tlmRoom x1 r then (tlmAppend x1 r, true) else ({ x1 with drops := 1 }, false)
    else ({ x with drops := x.drops + 1 }, false)

/-- A hub after a record was offered to one of its streams; a stream does not write while the rings do not run
(R418). `free` says that the telemetry class has an item free; a record that finds none waits, and the next that finds one goes
after it (R429). -/
def hubTlm (free : Bool) (H : Hub) (t : Nat) (r : TlmRec) : Hub :=
  match tblGet H.streams t with
  | none => H
  | some x =>
    if hubServes H && ringsOn H then
      if free then
        let (x', lost) := (x.waiting ++ [r]).foldl (fun y r => let z := tlmOffer y.1 r; (z.1, y.2 + if z.2 then 0 else 1))
          ({ x with waiting := [] }, 0)
        let H' := writeBursts .telemetry (ringBursts maxWrite x.base x.n x.prod (x'.prod - x.prod).toNat)
          { H with streams := tblSet H.streams t x' }
        { H' with counts := { H'.counts with tlmDrops := satInc H'.counts.tlmDrops lost } }
      else { H with streams := tblSet H.streams t { x with waiting := x.waiting ++ [r] } }
    else H

/-- A record for every stream of a source, 0-3 the lanes, 4 and 5 the hubs; `needRun` asks that the stream has been
started. -/
def tlm (s : State) (source kind : Nat) (body : List Byte) (needRun : Bool) : State :=
  let r : TlmRec := { kind := kind, source := source, round := s.grp.round, body := body }
  [HubId.h0, HubId.h1].foldl (fun s h =>
    (hub s h).streams.foldl (fun s e =>
      if e.2.source == source && (e.2.running || !needRun) then modHub s h fun H => hubTlm (itemFree s h .telemetry) H e.1 r else s) s) s

/-- The record a stream of a source delivers at its next sample period end (R501). -/
def tlmLatest (s : State) (source kind : Nat) (body : List Byte) : State :=
  let r : TlmRec := { kind := kind, source := source, round := s.grp.round, body := body }
  [HubId.h0, HubId.h1].foldl (fun s h =>
    modHub s h fun H => { H with streams := H.streams.map fun e =>
      if e.2.source == source && e.2.running then
        (e.1, { e.2 with latest := (e.2.latest.filter fun x => x.kind != kind) ++ [r] })
      else e }) s

/-- The body of a diagnostic record (R531): 48 bytes. -/
def diagBody (kind num : Nat) (args : List Byte) : List Byte :=
  leBytes 2 kind ++ [0, 0] ++ leBytes 4 num ++ sliceBytes args 0 40

/-- A lane writes a diagnostic record: the last 256 stay in its journal, and its telemetry streams deliver it (R530). -/
def diag (s : State) (l : LaneId) (kind : Nat) (args : List Byte) : State :=
  let L := lane s l
  let num := L.nv.diagCount + 1
  let recs := L.nv.diag ++ [{ kind := kind, num := num, round := s.grp.round, args := args }]
  let s1 := setLane s l { L with nv := { L.nv with diagCount := num, diag := recs.drop (recs.length - 256) } }
  tlm s1 (laneNum l) 6 (diagBody kind num args) false

/-! ## Codes of causes -/

/-- The code of a context state in CONTEXT_STATUS (R131). -/
def ctxStCode : CtxSt → Nat
  | .absent => 0
  | .stopped => 1
  | .running => 2
  | .safeFault => 3
  | .safeOverrun => 4

/-- The cause byte of a CONTEXT event: late event, state change, drive transition (R411; the codes are the model's,
log 25). -/
def ctxCauseLate : Nat := 1
/-- Cause of a CONTEXT event: a state change. -/
def ctxCauseState : Nat := 2
/-- Cause of a CONTEXT event: a drive transition. -/
def ctxCauseDrive : Nat := 3

/-- A CONTEXT event (R411): context, cause, and the new state or the drive. -/
def ctxEvent (s : State) (n cause x : Nat) : State :=
  event s bothHubs 0x8003 (some (BitVec.ofNat 32 n)) 0 0 (leBytes 1 n ++ leBytes 1 cause ++ leBytes 1 x)

/-- The cause byte of a LANE event: 1 fence, 2 verdict, 3 retirement, 4 oscillator switch (R411, log 25). -/
def laneEvent (s : State) (l : LaneId) (cause x : Nat) : State :=
  event s bothHubs 0x8002 none 0 0 (leBytes 1 (laneNum l) ++ leBytes 1 cause ++ leBytes 1 x)

end Sys2Proof.Machine
end

