-- ==== Sys2Proof/Machine/CfgParse.lean ====
section
/-! DEFINITION. Reading an image: the section directory of a bank (R466), the image header, context table and type
table of the code region (R186-R191), and the tables of the sealed configuration block (R194-R196, R576). -/

namespace Sys2Proof.Machine

open Sys2Proof

/-! ## Banks (R466) -/

/-- Offset and length of the section of a kind in bank content. -/
def bankSection (d : Mem) (kind : Nat) : Option (Nat × Nat) :=
  ((List.range 8).find? fun k => memNat d (16 * k) 4 == kind && kind != 0).map fun k =>
    (memNat d (16 * k + 4) 4, memNat d (16 * k + 8) 4)

/-- The section directory is well formed (R466): the sections lie within the content and do not overlap, and a code region image
is 2 MiB long. -/
def bankDirOk (d : Mem) (len : Nat) : Bool :=
  let secs := (List.range 8).filterMap fun k =>
    if memNat d (16 * k) 4 == 0 then none else some (memNat d (16 * k + 4) 4, memNat d (16 * k + 8) 4)
  (List.range 8).all (fun k => memNat d (16 * k) 4 ≤ 5) &&
  (List.range 8).all (fun k => memNat d (16 * k) 4 != 1 || memNat d (16 * k + 8) 4 == 0x200000) &&
  secs.all (fun x => x.1 + x.2 ≤ len) &&
  secs.Pairwise (fun x y => x.1 + x.2 ≤ y.1 ∨ y.1 + y.2 ≤ x.1)

/-- The cells of a section moved to an address. -/
def sectionCells (d : Mem) (kind dst : Nat) : Mem :=
  match bankSection d kind with
  | none => []
  | some (off, len) => (memRange d off (off + len)).map fun c => (c.1 - off + dst, c.2)

/-- A byte of the instance area initial image (R130, R574): 0 where the section does not reach. -/
def initByte (d : Mem) (a : Nat) : Byte :=
  match bankSection d 3 with
  | none => 0
  | some (off, len) => if 0x200000 ≤ a && a < 0x200000 + len then memGet d (off + (a - 0x200000)) else 0

/-- A word of the instance area initial image. -/
def initWord (d : Mem) (a : Nat) : Nat := leNat ((List.range 4).map fun k => initByte d (a + k))

/-- CFG_BASE for a block length (R576). -/
def cfgBaseOf (len : Nat) : Nat := 0x600000 - (len + 4095) / 4096 * 4096

/-! ## The code region (R186-R191) -/

/-- The context table entry of a number (R189). -/
def parseCtx (m : Mem) (n : Nat) : CtxCfg :=
  let a := 0x100 + 64 * n
  let cls := (memGet m (a + 1)).toNat
  let opt (x : Nat) : Option Nat := if x = 0xFFFFFFFF then none else some x
  { num := n, vital := cls == 1, present := cls == 1 || cls == 2,
    period := (memGet m (a + 2)).toNat, offset := (memGet m (a + 3)).toNat,
    base := memNat m (a + 4) 4, size := memNat m (a + 8) 4, rootType := memNat m (a + 12) 2 % 4096,
    marks := (List.range (min 8 (memGet m (a + 14)).toNat)).map fun k =>
      let w := memNat m (a + 32 + 4 * k) 4
      (w / 2 ^ 20, w % 2 ^ 20),
    reqBuf := opt (memNat m (a + 16) 4), xIn := opt (memNat m (a + 20) 4), xOut := opt (memNat m (a + 24) 4) }

/-- CODE_ADDR of a type (R191). -/
def typeCode (m : Mem) (ty : Nat) : Nat := memNat m (0x4100 + 16 * ty) 4

/-- INST_UNITS of a type (R191). -/
def typeUnits (m : Mem) (ty : Nat) : Nat := memNat m (0x4104 + 16 * ty) 4 % 2 ^ 20

/-- TYPE_SIG of a type (R191, R192). -/
def typeSig (m : Mem) (ty : Nat) : Nat := memNat m (0x4108 + 16 * ty) 8

/-- A branch, jump, call or return target meets R158. -/
def codeTargetOk (a : Nat) : Bool := a % 4 == 0 && 0x14100 ≤ a && a ≤ 0x1BFFFF

/-! ## The sealed configuration block (R194-R196) -/

/-- The directory entry of a table: offset, count and entry size. -/
def cfgTable (m : Mem) (base id : Nat) : Option (Nat × Nat × Nat) :=
  let n := min 64 (memNat m (base + 6) 2)
  ((List.range n).find? fun k => memNat m (base + 64 + 16 * k) 2 == id).map fun k =>
    let a := base + 64 + 16 * k
    (memNat m (a + 4) 4, memNat m (a + 8) 4, memNat m (a + 12) 4)

/-- The addresses of a table's entries; an absent table has none (R194). -/
def tableRows (m : Mem) (base id : Nat) : List Nat :=
  match cfgTable m base id with
  | none => []
  | some (off, n, sz) => (List.range n).map fun k => base + off + sz * k

/-- Some directory entry holds a reserved TABLE_ID (R195). -/
def badTableId (m : Mem) (base : Nat) : Bool :=
  (List.range (min 64 (memNat m (base + 6) 2))).any fun k =>
    let id := memNat m (base + 64 + 16 * k) 2
    id == 0 || 18 < id

/-- A point index field; all ones means none. -/
def optPoint (x : Nat) : Option Nat := if x = 0xFFFFFFFF then none else some x

/-- A point record of table 8 (R196). -/
def parsePoint (m : Mem) (a : Nat) : PointCfg :=
  { index := memNat m a 4, out := (memGet m (a + 4)).getLsbD 0, word := (memGet m (a + 4)).getLsbD 1,
    subst := BitVec.ofNat 16 (memNat m (a + 6) 2) }

/-- A station entry of table 7 with its records of table 8 (R196). -/
def parseStation (m : Mem) (points : List Nat) (a : Nat) : StationCfg :=
  { addr := memNat m a 2, vital := (memGet m (a + 2)).toNat == 1, ctx := (memGet m (a + 3)).toNat,
    dlLen := memNat m (a + 4) 2, ulLen := memNat m (a + 6) 2, silence := (memGet m (a + 8)).toNat,
    quality := (memGet m (a + 9)).toNat != 0, svcLen := (memGet m (a + 10)).toNat,
    statePoint := optPoint (memNat m (a + 12) 4),
    points := ((points.drop (memNat m (a + 16) 4)).take (memNat m (a + 20) 2)).map (parsePoint m) }

/-- A slot of the round plan (R231), most significant byte first. -/
def parseSlot (m : Mem) (a : Nat) : SlotCfg :=
  { start := beNat (memBytes m a 3), kind := (memGet m (a + 3)).toNat, len := beNat (memBytes m (a + 4) 2),
    owner := beNat (memBytes m (a + 6) 2) }

/-- Table 6 divides into the plans of segments 1 and 2 where a slot starts earlier than the one before it (log 17). -/
def splitPlan : List SlotCfg → List SlotCfg × List SlotCfg
  | [] => ([], [])
  | [x] => ([x], [])
  | x :: y :: r =>
    if y.start < x.start then ([x], y :: r)
    else
      let (p, q) := splitPlan (y :: r)
      (x :: p, q)

/-- A channel configuration of table 12 (R195). -/
def parseChan (m : Mem) (a : Nat) : ChanCfg :=
  { word := BitVec.ofNat 64 (memNat m a 8), p0 := optPoint (memNat m (a + 8) 4),
    p1 := optPoint (memNat m (a + 12) 4), p2 := optPoint (memNat m (a + 16) 4), ctx := (memGet m (a + 20)).toNat }

/-- A request channel of table 13. -/
def parseReq (m : Mem) (a : Nat) : ReqChan :=
  { ctx := (memGet m a).toNat, chan := (memGet m (a + 1)).toNat, depth := (memGet m (a + 2)).toNat,
    maxLen := (memGet m (a + 3)).toNat }

/-- A cycle mark of table 14. -/
def parseMark (m : Mem) (a : Nat) : MarkCfg :=
  { ctx := (memGet m a).toNat, mark := (memGet m (a + 1)).toNat, hostEvent := (memGet m (a + 2)).getLsbD 0,
    hasTask := (memGet m (a + 2)).getLsbD 1, offUs := memNat m (a + 4) 4 }

/-- An exchange block of table 15. -/
def parseX (m : Mem) (a : Nat) : XBlock :=
  { kind := (memGet m a).toNat, ctx := (memGet m (a + 1)).toNat, blk := (memGet m (a + 2)).toNat,
    pub := (memGet m (a + 3)).toNat, len := memNat m (a + 4) 2, off := memNat m (a + 8) 4 }

/-- A tunable or constant of table 16. -/
def parseTun (m : Mem) (a : Nat) : Tunable :=
  let f := memGet m (a + 1)
  { ctx := (memGet m a).toNat, isSealed := f.getLsbD 0, const := f.getLsbD 1, signed := f.getLsbD 2,
    index := memNat m (a + 2) 2, off := memNat m (a + 4) 4, lower := memWord m (a + 8), upper := memWord m (a + 12) }

/-- A two-channel function of table 17: the fields of R347 packed. -/
def parseFn (m : Mem) (a : Nat) : FnCfg :=
  { fn := memNat m a 2, ctx := memNat m (a + 2) 2, anti := memNat m (a + 4) 2 != 0, chA := memNat m (a + 6) 4,
    chB := memNat m (a + 10) 4, demandA := memNat m (a + 14) 2 != 0, n := memNat m (a + 16) 2,
    point := memNat m (a + 18) 4 }

/-- The used vertices of an envelope: the first, and those whose time rises (R360). -/
def usedVerts : List (Nat × Nat) → List (Nat × Nat)
  | [] => []
  | [v] => [v]
  | v :: w :: r => if v.1 < w.1 then v :: usedVerts (w :: r) else [v]

/-- A supervised drive of table 18: the fields of R360 packed. -/
def parseDrive (m : Mem) (a : Nat) : DriveCfg :=
  let verts := (List.range 8).map fun k => (memNat m (a + 32 + 2 * k) 2, memNat m (a + 48 + 4 * k) 4)
  { drv := memNat m a 2, ctx := memNat m (a + 2) 2, permit := memNat m (a + 4) 4, ramp := memNat m (a + 8) 4,
    stoA := memNat m (a + 12) 4, stoB := memNat m (a + 16) 4, fbA := memNat m (a + 20) 4, fbB := memNat m (a + 24) 4,
    speed := memNat m (a + 28) 4, env := usedVerts verts, still := memNat m (a + 80) 4,
    stillRds := memNat m (a + 84) 2, tMax := memNat m (a + 86) 2, fbTime := memNat m (a + 88) 2,
    status := memNat m (a + 90) 4 }

/-- The first row of a table, 0 when the table is absent. -/
def rowOr (rows : List Nat) : Option Nat := rows.head?

/-- A field of the first row of a table, or a default. -/
def rowField (m : Mem) (rows : List Nat) (off n dflt : Nat) : Nat :=
  match rows.head? with
  | none => dflt
  | some a => memNat m (a + off) n

/-- Everything a lane reads from its loaded image. Where the image holds no table 4, ROUND_TICKS is 100 and OUTPUT_LEAD 400
(R194 gives them no default; DESIGN CHOICE, log 125). -/
def parseCfg (m : Mem) (base : Nat) : Cfg :=
  let t (id : Nat) := tableRows m base id
  let pts := t 8
  let plan := splitPlan ((t 6).map (parseSlot m))
  { imageId := BitVec.ofNat 64 (memNat m 8 8), magicOk := memNat m 0 4 == 0x4E584642, format := memNat m 4 2,
    safetyMajor := memNat m 6 2, ctxs := ((List.range 256).map (parseCtx m)).filter fun c => c.present,
    benchPermit := (memGet m (base + 20)).getLsbD 0, planId := BitVec.ofNat 64 (memNat m (base + 12) 8),
    cfgBase := base,
    seatKeys := (t 1).map fun a => BitVec.ofNat 64 (memNat m a 8),
    knownAns := (t 2).map fun a => memWord m a,
    updateKey := BitVec.ofNat 256 (rowField m (t 3) 0 32 0),
    trims := (List.range 4).map fun k => signedOf 16 (rowField m (t 4) (2 * k) 2 0),
    roundTicks := rowField m (t 4) 8 2 100, outputLead := rowField m (t 4) 10 2 400,
    mac := BitVec.ofNat 48 (rowField m (t 5) 0 6 0x034E58000000),
    ethertype := BitVec.ofNat 16 (rowField m (t 5) 6 2 0x88B5), dlPackMax := rowField m (t 5) 8 2 896,
    grantRoom := rowField m (t 5) 10 1 4,
    owners := ((List.range 4).map fun k => rowField m (t 5) (11 + k) 1 0xFF).filter fun x => x != 0xFF,
    spareRel := rowField m (t 5) 15 4 1000, svcTimeout := rowField m (t 5) 19 2 100,
    syncKey := BitVec.ofNat 64 (rowField m (t 5) 21 8 0),
    plan1 := plan.1, plan2 := plan.2,
    stations := (t 7).map (parseStation m pts),
    vitalIds := ((t 9).zip (t 10)).map fun x =>
      (memNat m x.1 2, BitVec.ofNat 64 (memNat m (x.1 + 8) 8), BitVec.ofNat 64 (memNat m x.2 8)),
    tileWords := ⟨BitVec.ofNat 64 (((t 11)[0]?).elim 0 fun a => memNat m a 8),
      BitVec.ofNat 64 (((t 11)[1]?).elim 0 fun a => memNat m a 8)⟩,
    chans := (t 12).map (parseChan m), reqChans := (t 13).map (parseReq m), marks := (t 14).map (parseMark m),
    xblocks := (t 15).map (parseX m), tunables := (t 16).map (parseTun m), fns := (t 17).map (parseFn m),
    drives := (t 18).map (parseDrive m),
    badTable := badTableId m base }

/-- A tunable entry R196 permits: of a vital context exactly one of SEALED_BOUNDS and CONSTANT; of a non-vital one
never SEALED_BOUNDS. An entry whose CONTEXT is absent is of neither, and bars no start (DESIGN CHOICE, log 154). -/
def tunableOk (c : Cfg) (t : Tunable) : Bool :=
  match ctxCfg? c t.ctx with
  | none => true
  | some x => if x.vital then t.isSealed != t.const else !t.isSealed

/-- A lane may start an image (R188): header fields match the executive, every root and mark type has code, no
reserved table and no forbidden tunable. Every MARKn up to MARK_COUNT counts as a mark entry, one without a task (HAS_TASK
0) too (DESIGN CHOICE, log 123). Context 0, the executive, has no user code, and none is asked of its entry (DESIGN CHOICE, log
153). -/
def imageStarts (c : Cfg) (m : Mem) (major : Nat) : Bool :=
  c.magicOk && c.format == 1 && c.safetyMajor == major && !c.badTable &&
  c.tunables.all (tunableOk c) &&
  c.ctxs.all fun x => x.num == 0 ||
    ((typeCode m x.rootType != 0 && codeTargetOk (typeCode m x.rootType)) &&
      x.marks.all fun k => typeCode m k.1 != 0 && codeTargetOk (typeCode m k.1))

/-- An address of the instance area is the first byte of an instance header (R163): 16-byte aligned, and the initial
image holds there a type id with that type's size (log 30). -/
def isHeader (d m : Mem) (a : Nat) : Bool :=
  let w := initWord d a
  a % 16 == 0 && w != 0 && w % 2 ^ 20 != 0 && typeUnits m (w / 2 ^ 20) == w % 2 ^ 20

/-! ## Points -/

/-- What is known of a point index (R108): the context that owns it and whether it is an output. -/
structure PointInfo where
  ctx : Nat
  out : Bool
  word : Bool := false
  deriving DecidableEq, Repr

/-- Mode of a channel configuration word (R339). -/
def chMode (w : DWord) : Nat := w.toNat % 4
/-- CNT_MODE of a channel configuration word. -/
def chCnt (w : DWord) : Nat := w.toNat / 32 % 4

/-- The points of the channels of a configuration (R339, R324): value points, count and delta points, status points. -/
def chanPoint? (c : Cfg) (p : Nat) : Option PointInfo :=
  (c.chans.find? fun x => x.p0 == some p || x.p1 == some p || x.p2 == some p).map fun x =>
    { ctx := x.ctx, out := chMode x.word == 2 && x.p0 == some p,
      word := !(x.p0 == some p && chCnt x.word == 0) }

/-- The owner and direction of a point (R108, R282, R349, R364); none for an index no point uses. -/
def pointInfo? (c : Cfg) (p : Nat) : Option PointInfo :=
  match c.stations.find? fun x => (x.points.any fun r => r.index == p) || x.statePoint == some p with
  | some x =>
    match x.points.find? fun r => r.index == p with
    | some r => some { ctx := x.ctx, out := r.out, word := r.word }
    | none => some { ctx := x.ctx, out := false, word := true }
  | none =>
    match chanPoint? c p with
    | some i => some i
    | none =>
      match c.fns.find? fun f => f.point == p with
      | some f => some { ctx := f.ctx, out := false, word := true }
      | none => (c.drives.find? fun d => d.status == p).map fun d => { ctx := d.ctx, out := false, word := true }

end Sys2Proof.Machine
end

