-- ==== Sys2Proof/Machine/Valuz.lean ====
section
/-! DEFINITION. The Valuz engines (R376-R382, R390): registers, GO, ABORT and the end of a scan. -/

namespace Sys2Proof.Machine

open Sys2Proof

/-- The code of STATE (R380). -/
def valuzStCode : ValuzSt → Nat
  | .idle => 0
  | .busy => 1
  | .done => 2
  | .error => 3

/-- A read of a channel register (R380); write-only fields and other offsets read as 0. -/
def valuzRead (c : ValuzChan) (off : Nat) : Word :=
  match off with
  | 0x00 => c.start
  | 0x04 => c.length
  | 0x08 => c.sq
  | 0x0C => BitVec.ofNat 32 (c.poly.toNat + 2 * c.fold.toNat + 8 * c.pad64.toNat)
  | 0x10 => c.tag
  | 0x14 => c.startHi
  | 0x24 => BitVec.ofNat 32 (valuzStCode c.st + 16 * c.err + 65536 * c.scanId.toNat)
  | 0x28 => c.result.setWidth 32
  | 0x2C => (c.result >>> 32).setWidth 32
  | _ => 0

/-- A write of a descriptor register (R380); `keyOk` lets KEY be written and `hi` START_HI; nothing is written while
BUSY (R382). -/
def valuzWrite (c : ValuzChan) (off : Nat) (v : Word) (keyOk hi : Bool) : ValuzChan :=
  if c.st = .busy then c
  else match off with
    | 0x00 => { c with start := v }
    | 0x04 => { c with length := v }
    | 0x08 => { c with sq := v }
    | 0x0C => { c with poly := v.getLsbD 0, fold := v.extractLsb' 1 2, pad64 := v.getLsbD 3 }
    | 0x10 => { c with tag := v }
    | 0x14 => if hi then { c with startHi := v } else c
    | 0x18 => if keyOk then { c with key := (c.key.extractLsb' 32 32) ++ v } else c
    | 0x1C => if keyOk then { c with key := v ++ (c.key.extractLsb' 0 32) } else c
    | _ => c

/-- A channel ended in ERROR (R380): the result is 0. -/
def valuzFail (c : ValuzChan) (err : Nat) : ValuzChan := { c with st := .error, err := err, result := 0 }

/-- GO (R380): ignored while BUSY; else SCAN_ID rises and the scan runs, or ends at once in ERROR when its range is not
permitted, its length not 1 to 0x0080_0000 or its fold reserved (in this order, log 31). -/
def valuzStart (c : ValuzChan) (rangeOk : Bool) : ValuzChan :=
  if c.st = .busy then c
  else
    let c1 := { c with scanId := c.scanId + 1, err := 0, result := 0 }
    if !rangeOk then valuzFail c1 1
    else if c.length = 0 || 0x800000 < c.length.toNat then valuzFail c1 2
    else if c.fold = 3 then valuzFail c1 4
    else { c1 with st := .busy }

/-- ABORT (R380): a running scan ends with ERR = 3. -/
def valuzStop (c : ValuzChan) : ValuzChan := if c.st = .busy then valuzFail c 3 else c

/-- The result of a scan over its bytes (R376-R378). -/
def valuzResult (c : ValuzChan) (bytes : List Byte) : DWord :=
  let bs := if c.pad64 then pad64 bytes else bytes
  let fw := if c.fold = 1 then c.start else c.tag
  if c.poly then (if c.fold = 0 then crc64Plain bs else crc64Fold c.key fw c.sq bs)
  else ((if c.fold = 0 then crc32Plain bs else crc32Fold c.key fw c.sq bs)).setWidth 64

/-- A scan done (R379). -/
def valuzDone (c : ValuzChan) (bytes : List Byte) : ValuzChan :=
  { c with st := .done, err := 0, result := valuzResult c bytes }

/-- A scan of a lane channel stays in a range of addresses. -/
def scanWithin (c : ValuzChan) (lo hi : Nat) : Bool := lo ≤ c.start.toNat && c.start.toNat + c.length.toNat ≤ hi

/-- The permitted range of a lane channel (R381): the whole SRAM for channels 0-2 of a paired lane and the parts of a
core in split mode; for channel 3 the instance range of the one context that the image names as its user, or M's parts in split
mode. -/
def laneScanOk (L : Lane) (ch : Nat) (ctx : Option Nat) : Bool :=
  match L.valuz.toList[ch]? with
  | none => false
  | some c =>
    let split := L.st == .spareSplit
    if ch < 2 || (ch == 2 && !split) then scanWithin c 0 0x800000
    else if ch == 2 then scanWithin c 0x400000 L.cfg.cfgBase || scanWithin c 0x640000 0x680000
    else if split then scanWithin c 0x200000 (min 0x400000 L.cfg.cfgBase) || scanWithin c 0x600000 0x640000
    else match ctx.bind (ctxCfg? L.cfg) with
      | some x => !x.vital && x.num == Config.valuzUser L.cfg.imageId && scanWithin c x.base (x.base + x.size)
      | none => false

/-- A lane with a channel changed. -/
def modLaneValuz (L : Lane) (ch : Nat) (f : ValuzChan → ValuzChan) : Lane :=
  match L.valuz.toList[ch]? with
  | none => L
  | some c => { L with valuz := L.valuz.setIfInBounds ch (f c) }

/-- A hub with a channel changed. -/
def modHubValuz (H : Hub) (ch : Nat) (f : ValuzChan → ValuzChan) : Hub :=
  match H.valuz.toList[ch]? with
  | none => H
  | some c => { H with valuz := H.valuz.setIfInBounds ch (f c) }

/-- What the host scan of a hub reads (R380, R428, R430, R431): while channel 3 is BUSY, requests of the bulk class, cut at
4 KiB and at the max read request size, the first of them outstanding. -/
def scanRead (H : Hub) : Hub :=
  match H.valuz.toList[3]? with
  | some c =>
    if c.st = .busy then
      readOpen .bulk (cutBursts maxRead (c.length.toNat / 128 + c.length.toNat / 4096 + 2)
        (c.startHi.toNat * 2 ^ 32 + c.start.toNat) c.length.toNat) H
    else readClosed .bulk H
  | none => H

/-- A hub with a channel changed; a change of channel 3, the host scan, opens or closes its read. -/
def modHubScan (H : Hub) (ch : Nat) (f : ValuzChan → ValuzChan) : Hub :=
  let H1 := modHubValuz H ch f
  if H1.valuz.toList[3]? = H.valuz.toList[3]? then H1 else scanRead H1

/-- Every scan of a lane ends with ERR = 3 (R390). -/
def abortScans (L : Lane) : Lane := (List.range 4).foldl (fun L ch => modLaneValuz L ch valuzStop) L

/-- An address the plan names: it owns an uplink slot or has a station entry. -/
def plannedStation (c : Cfg) (addr : Nat) : Bool :=
  ((c.plan1 ++ c.plan2).any fun x => x.kind == 3 && x.owner == addr) || c.stations.any fun x => x.addr == addr

/-- STATION_KEY of an address (R243): a vital station's from its tables; that of another station of the plan, for which no
table has a field (log 114); 0 for a late-comer not named anywhere. -/
def stationKey (c : Cfg) (addr : Nat) : DWord :=
  match c.vitalIds.find? fun v => v.1 == addr with
  | some v => v.2.2
  | none => if plannedStation c addr then Config.planKey c.planId addr else 0

/-- The scans of a hub whose firmware or host side goes: they are lost, and the channels IDLE (R390). -/
def dropScans (chs : List Nat) (H : Hub) : Hub :=
  chs.foldl (fun H ch => modHubScan H ch fun c => if c.st = .busy then { c with st := .idle } else c) H

/-- KEY of a scan of a lane's channels 0-2, from the sealed configuration, as R384 names it for each use (R382): that of the seat or
the station which the fold word names, 0 for every other use. -/
def laneScanKey (L : Lane) (c : ValuzChan) : DWord :=
  let kind := c.tag.toNat % 256
  if c.fold ≠ 2 then 0
  else if kind = 0x20 || kind = 0x21 then stationKey L.cfg (c.tag.toNat / 65536 % 4096)
  else if kind / 16 = 1 || kind / 16 = 4 then (L.cfg.seatKeys[kind % 16 - 1]?).getD 0
  else 0

/-- A command for a channel of a hub's engine comes through: channel 3 is the host's, through BAR0; the others are the
firmware's (R381, R419). -/
def hubChanUp (H : Hub) (ch : Nat) : Bool := H.fwRunning && (ch != 3 || H.pcieUp)

/-- GO of a lane's channel: channels 0-2 scan with the key of the sealed configuration (R380-R382, R384). -/
def laneGo (L : Lane) (ch : Nat) : Lane :=
  modLaneValuz L ch fun c =>
    valuzStart (if ch < 3 && c.st != .busy then { c with key := laneScanKey L c } else c) (laneScanOk L ch (L.cur.map (·.ctx)))

/-- GO of a channel (R380-R382). -/
def valuzGo (eng : Engine) (ch : Nat) (s : State) : State :=
  match eng with
  | .lane l => modLane s l fun L => laneGo L ch
  | .hub h => modHub s h fun H =>
      if hubChanUp H ch then modHubScan H ch fun c => valuzStart c (ch == 3 || Config.hubScanOk c.start c.length) else H

/-- ABORT of a channel. -/
def valuzAbort (eng : Engine) (ch : Nat) (s : State) : State :=
  match eng with
  | .lane l => modLane s l fun L => modLaneValuz L ch valuzStop
  | .hub h => modHub s h fun H => if hubChanUp H ch then modHubScan H ch valuzStop else H

/-- The end of a running scan (R379): over the lane's SRAM, or over the bytes a hub has read; a host read that failed
ends with ERR = 5, DMA_ERROR counts, and vector 3 tells of the channel that stopped (R380, R425, R446). -/
def valuzComplete (eng : Engine) (ch : Nat) (data : List Byte) (hostOk : Bool) (s : State) : State :=
  match eng with
  | .lane l =>
    modLane s l fun L => modLaneValuz L ch fun c =>
      if c.st = .busy then valuzDone c (memBytes L.mem c.start.toNat c.length.toNat) else c
  | .hub h =>
    modHub s h fun H =>
      match H.valuz.toList[ch]? with
      | some c =>
        if c.st = .busy then
          if ch = 3 && !hostOk then
            let H1 := modHubScan H ch fun c => valuzFail c 5
            raiseVec { H1 with counts := { H1.counts with dmaError := satInc H1.counts.dmaError } } 3
          else modHubScan H ch fun c => valuzDone c (sliceBytes data 0 c.length.toNat)
        else H
      | none => H

/-- VALUZ_SCAN_COMPLETE (R379). -/
def execValuzScanComplete (eng : Engine) (ch : Nat) (data : List Byte) (hostOk : Bool) (s : State) :
    Host.Outcome State Fault Refusal := .next (whenOn s (valuzComplete eng ch data hostOk))

/-- VALUZ_GO (R380, R382). -/
def execValuzGo (eng : Engine) (ch : Nat) (s : State) : Host.Outcome State Fault Refusal :=
  .next (whenOn s (valuzGo eng ch))

/-- VALUZ_ABORT (R380). -/
def execValuzAbort (eng : Engine) (ch : Nat) (s : State) : Host.Outcome State Fault Refusal :=
  .next (whenOn s (valuzAbort eng ch))

end Sys2Proof.Machine
end

