-- ==== Sys2Proof/Machine/Operands.lean ====
section
/-! DEFINITION. The operand forms of function-block code (R138, R146, R153-R155, R158-R163, R169): registers,
immediates, load and store addresses, points and slots. -/

namespace Sys2Proof.Machine

open Sys2Proof

/-! ## Registers and immediates -/

/-- A register; X0 reads as 0 (R138). -/
def getX (t : Task) (r : Reg) : Word := if r = 0 then 0 else t.x.toList[r.toNat]?.getD 0

/-- A register written; a write to X0 is discarded (R138). -/
def setX (t : Task) (r : Reg) (v : Word) : Task :=
  if r = 0 then t else { t with x := t.x.setIfInBounds r.toNat v }

/-- A sign-extended imm12 (R146). -/
def sext12 (i : BitVec 12) : Word := i.signExtend 32

/-- A zero-extended imm12 (R146). -/
def zext12 (i : BitVec 12) : Word := i.setWidth 32

/-- A branch or jump target: a signed count of words from the instruction (R146). -/
def targetOf {n : Nat} (pc : Word) (i : BitVec n) : Word := pc + (i.signExtend 32 <<< 2)

/-- A signed value clamped to 32 bits (R147). -/
def sat32 (v : Int) : Word :=
  if 0x7FFFFFFF < v then 0x7FFFFFFF else if v < -0x80000000 then 0x80000000 else BitVec.ofInt 32 v

/-- 1 for true, 0 for false (R149). -/
def boolWord (b : Bool) : Word := if b then 1 else 0

/-! ## Memory as a lane's M sees it -/

/-- The newest byte the outbound buffer holds for an address. -/
def bufGet : Mem → Nat → Option Byte
  | [], _ => none
  | (k, v) :: r, a => if k = a then some v else bufGet r a

/-- A byte as M loads it: from the outbound buffer if a store waits there, else from the SRAM (R41). -/
def laneByte (L : Lane) (a : Nat) : Byte := (bufGet L.outBuf a).getD (memGet L.mem a)

/-- The little-endian number in n bytes as M loads it. -/
def laneNat (L : Lane) (a : Nat) : Nat → Nat
  | 0 => 0
  | n + 1 => (laneByte L a).toNat + 256 * laneNat L (a + 1) n

/-- A word as M loads it. -/
def laneWord (L : Lane) (a : Nat) : Word := BitVec.ofNat 32 (laneNat L a 4)

/-- The bytes of a store, in address order. -/
def storeBytes (a n v : Nat) : List (Nat × Byte) :=
  (leBytes n v).zipIdx.map fun x => (a + x.2, x.1)

/-! ## What an access may reach (R154, R155, R163, R453, R381) -/

/-- Where an access lands once its checks pass. -/
inductive Where where
  | sram
  | valuz (off : Nat)
  | ctr (off : Nat)
  deriving DecidableEq, Repr

/-- The bytes of the active bank of a lane (R484): what its valid active-bank record names. -/
def activeIsB (nv : LaneNv) : Bool :=
  if nv.rec0.valid && (!nv.rec1.valid || nv.rec1.sq ≤ nv.rec0.sq) then nv.rec0.bankB
  else if nv.rec1.valid then nv.rec1.bankB else false

/-- The active bank. -/
def activeBank (nv : LaneNv) : Bank := if activeIsB nv then nv.bankB else nv.bankA

/-- The inactive bank. -/
def inactiveBank (nv : LaneNv) : Bank := if activeIsB nv then nv.bankA else nv.bankB

/-- A range of bytes overlaps the header word of an instance (R163). -/
def overHeader (L : Lane) (a n : Nat) : Bool :=
  let d := (activeBank L.nv).data
  (List.range n).any fun k => (a + k) % 16 < 4 && isHeader d L.mem ((a + k) / 16 * 16)

/-- The checks of a load or store of n bytes: the place, or the fault cause. An address the task may not reach is
cause 5, a misaligned access 6, a vital context's access to a register block 10; of several the lowest (R154, R155,
R183, R197). -/
def accessCheck (L : Lane) (t : Task) (a n : Nat) (store : Bool) : Except Nat Where :=
  match ctxCfg? L.cfg t.ctx with
  | none => .error 5
  | some c =>
    let inBlock (base : Nat) : Bool := base ≤ a && a + n ≤ base + 0x1000
    if c.base ≤ a && a + n ≤ c.base + c.size then
      if store && overHeader L a n then .error 5
      else if a % n = 0 then .ok .sram else .error 6
    else if inBlock 0x40003000 || inBlock 0x40005000 then
      if c.vital then (if a % n = 0 then .error 10 else .error 6)
      else if c.num == Config.valuzUser L.cfg.imageId && 0x400030C0 ≤ a && a + n ≤ 0x40003100 then
        if a % n = 0 then .ok (.valuz (a - 0x400030C0)) else .error 6
      else if !store && 0x40005000 ≤ a &&
          ((a + n ≤ 0x40005200 && (a - 0x40005000) % 0x20 < 8) || (0x40005210 ≤ a && a + n ≤ 0x40005214)) then
        if a % n = 0 then .ok (.ctr (a - 0x40005000)) else .error 6
      else .error 5
    else .error 5

/-! ## Points (R159-R162) -/

/-- The checks of an instance at an address against a type, in the order of R164: header and range (cause 7), code address
(cause 9); the type's code address when all pass. -/
def instCheck (L : Lane) (n a ty : Nat) : Except Nat Nat :=
  match ctxCfg? L.cfg n with
  | none => .error 7
  | some c =>
    let hdr := laneNat L a 4
    if a < c.base || c.base + c.size < a + 16 || hdr / 2 ^ 20 ≠ ty then .error 7
    else if c.base + c.size < a + 16 * (hdr % 2 ^ 20) then .error 7
    else if typeCode L.mem ty = 0 || !codeTargetOk (typeCode L.mem ty) then .error 9
    else .ok (typeCode L.mem ty)

/-- The address of a point's entry (R159). -/
def pointAddr (p : Nat) : Nat := 0x600000 + 4 * p

/-- The checks of a point access in the order of R162: range, ownership, direction; the fault cause of the first that
fails. -/
def pointCheck (L : Lane) (t : Task) (p : Nat) (store : Bool) : Option Nat :=
  if 131071 < p then some 2
  else match pointInfo? L.cfg p with
    | none => some 3
    | some i => if i.ctx ≠ t.ctx then some 3 else if store && !i.out then some 4 else none

/-- What sel reads of an entry (R160); none for a sel the table does not list. -/
def pointRead (e : Word) (sel : Nat) : Option Word :=
  match sel with
  | 0 => some e
  | 1 => some (e >>> 16)
  | 2 => some (e.sshiftRight 16)
  | 3 => some ((e >>> 8) &&& 0xFF)
  | 4 => some (e &&& 0xFF)
  | 5 => some ((e >>> 16) &&& 1)
  | _ => none

/-- What sel writes into the value field (R161); none for a sel the table does not list. -/
def pointVal (v : Word) (sel : Nat) : Option (BitVec 16) :=
  match sel with
  | 0 => some (if v.toInt < 0 then 0 else if 65535 < v.toInt then 0xFFFF else v.setWidth 16)
  | 1 => some (if v.toInt < -32768 then 0x8000 else if 32767 < v.toInt then 0x7FFF else v.setWidth 16)
  | 2 => some (if v = 0 then 0 else 1)
  | _ => none

/-! ## Slots of built-ins (R169) -/

/-- The checks of a slot of n bytes at IB + 4 × imm12, aligned to `al`: wholly inside the current instance after its
header, and for an evaluation that writes over no nested header, else cause 5; aligned, else cause 6 (R169, R163). -/
def slotCheck (L : Lane) (t : Task) (imm : BitVec 12) (n al : Nat) (write : Bool) : Except Nat Nat :=
  let a := t.ib.toNat + 4 * imm.toNat
  let size := 16 * (laneNat L t.ib.toNat 4 % 2 ^ 20)
  if a < t.ib.toNat + 4 || t.ib.toNat + size < a + n then .error 5
  else if write && overHeader L a n then .error 5
  else if a % al = 0 then .ok a else .error 6

end Sys2Proof.Machine
end

