-- ==== Sys2Proof/Machine/Fb.lean ====
section
/-! DEFINITION. Committing an instruction of function-block code: what M commits, what K replays and counts, context
faults, the end of a run and the choice of the next task (R35-R41, R118, R142, R183, R184, R447-R449). -/

namespace Sys2Proof.Machine

open Sys2Proof

/-! ## Lane counters (R447-R455) -/

/-- The lane is in split mode for SPLIT_ONLY: from the end of entry to step 1 of the hand-over (R448). -/
def inSplit (L : Lane) : Bool := L.st == .spareSplit && !L.unsplit

/-- An address passes the address filter (R448). -/
def addrPasses (C : LaneCtrs) (mode : Nat) (addr : Option Word) : Bool :=
  let inA (a : Word) : Bool := C.aStart ≤ a && a ≤ C.aEnd
  let inB (a : Word) : Bool := C.bStart ≤ a && a ≤ C.bEnd
  match mode, addr with
  | 0, _ => true
  | _, none => false
  | 1, some a => inA a
  | 2, some a => inB a
  | _, some a => inA a || inB a

/-- Lane counter n counts an event of a master (R447, R448). -/
def laneCtrCounts (L : Lane) (n master : Nat) (e : CtrEv) : Bool :=
  match L.ctrs.ctr.toList[n]? with
  | none => false
  | some c =>
    c.sel.getLsbD 22 && !c.sel.getLsbD 15 && c.sel.toNat % 16 == e.cls && !chainedTo L.ctrs.ctr.toList laneBits n &&
      c.sel.getLsbD (4 + e.priv) && c.sel.getLsbD (7 + master) &&
      addrPasses L.ctrs (c.sel.toNat / 4096 % 4) e.addr && (!c.sel.getLsbD 14 || inSplit L)

/-- One lane counter advanced by k, its carry into the next included (R455); wraps with OVF_SAMPLE owe samples, with the
master of the event where it is known (R456, R457). -/
def laneCtrStep (L : Lane) (n k : Nat) (master : Option Nat) : Lane :=
  let x := ctrStep laneBits L.ctrs.ctr n k
  { L with ctrs := { L.ctrs with ctr := x.1, owed := L.ctrs.owed ++ x.2.map fun i => (i, master) } }

/-- A lane counts an event; a retired lane's counters hold (R464). -/
def laneCount (L : Lane) (master : Nat) (e : CtrEv) : Lane :=
  if L.st == .retired then L
  else (List.range 16).foldl (fun L n => if laneCtrCounts L n master e then laneCtrStep L n e.n (some master) else L) L

/-- Lane counter n counts a raw signal (R450, R451). -/
def laneRawCounts (L : Lane) (n src : Nat) : Bool :=
  let sel := (L.ctrs.ctr.toList[n]?.getD {}).sel
  sel.getLsbD 22 && sel.getLsbD 15 && sel.toNat / 0x40000 % 16 == src && !chainedTo L.ctrs.ctr.toList laneBits n

/-- A raw signal of a lane rises and falls again: a snapshot received, a gate command frame sent, a boundary mark received
(R450). -/
def laneRaw (src : Nat) (L : Lane) : Lane :=
  if L.st == .retired then L
  else (List.range 16).foldl (fun L n =>
    if laneRawCounts L n src then
      laneCtrStep L n (rawEdges ((L.ctrs.ctr.toList[n]?.getD {}).sel.toNat / 0x10000 % 4) 1 1) none
    else L) L

/-- A lane counter counts what no command of this model tells, so that its value is free and its wrap comes at any count (log 80): a
level, the supply monitor and the retries of RAW; strait words, stalls and active ticks; the operations, loads, stores and branches of
the executive and of the masters other than M and K; split tasks; and K's windows in split mode (R447-R450). -/
def laneUnseen (L : Lane) (n : Nat) : Bool :=
  let sel := (L.ctrs.ctr.toList[n]?.getD {}).sel
  let cls := sel.toNat % 16
  let mode := sel.toNat / 0x10000 % 4
  let src := sel.toNat / 0x40000 % 16
  let some_ := sel.toNat / 0x10 % 8 != 0 && sel.toNat / 0x80 % 32 != 0 && (!sel.getLsbD 14 || inSplit L)
  let plain := sel.toNat / 0x1000 % 4 == 0
  L.st != .retired && sel.getLsbD 22 && !chainedTo L.ctrs.ctr.toList laneBits n &&
    (if sel.getLsbD 15 then mode != 3 && src < 8 && (mode == 2 || 6 ≤ src)
     else some_ &&
      ((cls ≤ 3 && (sel.getLsbD 6 || sel.toNat / 0x200 % 8 != 0)) || (cls ≤ 5 && inSplit L && sel.getLsbD 5) ||
       (plain && (cls == 6 || cls == 7 || cls == 9 || (cls == 8 && inSplit L && sel.getLsbD 8)))))

/-- The value of lane counter n as read: with the events that no command tells, a free number of them, applied to the counter of
free values and to the operations of the window (log 80). -/
def laneCtrValue (free : Nat) (L : Lane) (n : Nat) : BitVec 48 :=
  let v := (L.ctrs.ctr.toList[n]?.getD {}).value
  if laneUnseen L n then v + BitVec.ofNat 48 (Config.unseenCount free n L.winOps) else v

/-! ## The delay queue (R35-R39) -/

/-- A signature with items folded in (R39). -/
def foldItems (sig : DWord) (items : List (Nat × DWord)) : DWord :=
  items.foldl (fun g x => Config.sigFold g x.1 x.2) sig

/-- Operations waiting in the delay queue. -/
def dqOps (q : List DqEntry) : Nat := (q.map (·.ops)).foldl (· + ·) 0

/-- A register of a task that the debugger may write (R53); X0 stays 0. -/
def setReg (r : DebugReg) (v : Word) (t : Task) : Task :=
  match r with
  | .x r => setX t r v
  | .pc => { t with pc := v }
  | .ib => { t with ib := v }

/-- What K's architectural state becomes at an entry. K runs M's instruction on the values the entry carries, and so
reaches M's result (R35); it replays a debugger's action at the same boundary (R54). A disturbance that makes K's result
another one is the operand kFault of SIGNATURE_WINDOW_CLOSE (R38, log 16). -/
def kAct (L : Lane) : DqAct → Lane
  | .code after => { L with kCur := after }
  | .exec => L
  | .halt => { L with kHalted := true }
  | .step => L
  | .resume => { L with kHalted := false }
  | .reg r v => { L with kCur := L.kCur.map (setReg r v) }
  | .memory _ _ => L

/-- K commits one entry: it does what the entry says, its signature folds the items, and the counters count its events
with master K. -/
def kCommit (L : Lane) (e : DqEntry) : Lane :=
  e.evs.foldl (fun L v => laneCount L 1 v) { kAct L e.act with sigK := foldItems L.sigK e.items }

/-- K runs (R37): it commits an operation only after M has committed `keep` more, 32 in normal running and 0 in a drain, in
which K takes everything that waits. -/
def kRun (L : Lane) (keep : Nat) : List DqEntry → Lane
  | [] => { L with dq := [] }
  | e :: es => if keep ≤ dqOps es then kRun (kCommit L e) keep es else { L with dq := e :: es }

/-- M commits something both cores sign and K replays: the items are folded, and an entry goes into the delay queue
(R35-R39). -/
def enqueue (L : Lane) (e : DqEntry) : Lane :=
  let L1 := { L with sigM := foldItems L.sigM e.items }
  kRun L1 32 (L1.dq ++ [{ e with op := L.winOps + e.ops }])

/-- Work of the executive: signed items and the values it took in. The model gives it no operations of its own (log 102);
an entry stands at the operation boundary it follows. -/
def execSigned (L : Lane) (items : List (Nat × DWord)) (ins : List DWord := []) : Lane :=
  if items.isEmpty && ins.isEmpty then L else enqueue L { ops := 0, items := items, ins := ins, evs := [] }

/-- A lane wakes; a halted one stays in PAUSE (R495, R497). -/
def wake (L : Lane) : Lane := { L with power := if L.dbg.halted then .pause else .active }

/-- M takes values from outside: words received on a strait or from a hub or a tile, readings of the time base. They wake the
lane (R495) and enter the delay queue for K (R35). A lane that is fenced, retired or in self-test, and one in split mode, has
no pair that could replay them. -/
def takesIn (ins : List DWord) (L0 : Lane) : Lane :=
  let L := wake L0
  if L.fenced || L.nv.retire ≠ 0 || L.selfTest.running || L.st == .spareSplit then L else execSigned L [] ins

/-- A number taken in, as a word of the queue. -/
def inWord (n : Nat) : DWord := BitVec.ofNat 64 n

/-- Bytes taken in, eight to a word of the queue. -/
def inBytes : List Byte → List DWord
  | b0 :: b1 :: b2 :: b3 :: b4 :: b5 :: b6 :: b7 :: r =>
    BitVec.ofNat 64 (leNat [b0, b1, b2, b3, b4, b5, b6, b7]) :: inBytes r
  | [] => []
  | r => [BitVec.ofNat 64 (leNat r)]

/-- The words of the region under scrub that some stores touch are marked (R386). -/
def markStores (c : ScrubLane) (st : List (Nat × Byte)) : ScrubLane :=
  match c.region with
  | none => c
  | some r =>
    let ws := ((st.filter fun x => x.1 / 0x10000 == r).map fun x => x.1 / 4).eraseDups
    { c with marked := c.marked ++ ws.filter fun w => !c.marked.contains w }

/-- A signed store item (R39). -/
def storeItem (a : Nat) (v : Word) : Nat × DWord := (0, BitVec.ofNat 64 (a * 2 ^ 32 + v.toNat))

/-- A signed branch item: direction and target (R39). -/
def branchItem (taken : Bool) (target : Word) : Nat × DWord :=
  (1, BitVec.ofNat 64 (taken.toNat * 2 ^ 32 + target.toNat))

/-- A signed outbound word with the number of its destination (R39): 1-3 a strait to the lane of a seat, 4 and 5 the hubs,
6 and 7 the tiles, 8 a message to every lane. -/
def outItem (dest : Nat) (w : Word) : Nat × DWord := (2, BitVec.ofNat 64 (dest * 2 ^ 32 + w.toNat))

/-- The signed items of bytes stored from an address upward: one store a word, the rest one (R39). -/
def byteItems (a : Nat) : List Byte → List (Nat × DWord)
  | b0 :: b1 :: b2 :: b3 :: r => storeItem a (BitVec.ofNat 32 (leNat [b0, b1, b2, b3])) :: byteItems (a + 4) r
  | [] => []
  | r => [storeItem a (BitVec.ofNat 32 (leNat r))]

/-- The executive stores bytes: signed as stores, and waiting in the outbound buffer like them (R39, R41). -/
def poke (L : Lane) (a : Nat) (bs : List Byte) : Lane :=
  let st := bs.zipIdx.map fun x => (a + x.2, x.1)
  let L1 := execSigned L (byteItems a bs)
  { L1 with outBuf := st.reverse ++ L1.outBuf, scrub := markStores L1.scrub st }

/-- The executive stores words. -/
def execStores (L : Lane) (ws : List (Nat × Word)) : Lane := ws.foldl (fun L x => poke L x.1 (leBytes 4 x.2.toNat)) L

/-! ## Windows (R40, R41, R61, R463) -/

/-- The stores that wait leave for the SRAM, the oldest first (R41). -/
def flushStores (L : Lane) : Lane :=
  { L with mem := L.outBuf.foldr (fun c m => memPut m c.1 c.2) L.mem, outBuf := [] }

/-- A window with its signatures and count reset. -/
def resetWindow (L : Lane) : Lane := { L with sigM := 0, sigK := 0, winOps := 0, dq := [] }

/-- Both cores count the close of a window; in split mode each counts its own 4,096 operations, and M's alone are seen (R447). -/
def countClose (L : Lane) : Lane :=
  let L1 := laneCount L 0 { cls := 8, n := 1, priv := 2 }
  if inSplit L then L1 else laneCount L1 1 { cls := 8, n := 1, priv := 2 }

/-- A window that a store committed while no command closes windows has filled ends where both signatures agree; where they
differ, the next end of the window finds it (R40, R85). -/
def fullEqual (L : Lane) : Lane :=
  let L1 := countClose (kRun L 0 L.dq)
  if 4096 ≤ L.winOps && L1.sigM == L1.sigK then resetWindow (flushStores L1) else L

/-- A window closed in split mode compares nothing; a stall count of the strait receive gains one, until step 1 of the hand-over,
as the count of closes that corrects it (R61, R463). -/
def splitWindow (L : Lane) : Lane :=
  let L1 := countClose L
  resetWindow (flushStores (if inSplit L then laneCount L1 2 { cls := 7, n := 1, priv := 2 } else L1))

/-! ## Tasks (R118, R140) -/

/-- The output point a task works toward, as a round count: a task late at its own cycle's output point owes the next
(R118, R126). -/
def taskDue (c : Cfg) (t : Task) : Nat :=
  match ctxCfg? c t.ctx with
  | none => 0
  | some x => cycleRound x (t.cyc.toNat + 1 + t.late)

/-- The class of a task in the order of R118: vital contexts, mark tasks of non-vital contexts, non-vital contexts. -/
def taskClass (c : Cfg) (t : Task) : Nat :=
  match ctxCfg? c t.ctx with
  | none => 3
  | some x => if x.vital then 0 else if t.mark.isSome then 1 else 2

/-- Task a runs before task b (R118). The rule orders contexts; the order among mark tasks of non-vital contexts, and among
the tasks of one context, is the model's (DESIGN CHOICE, log 103): by the output point, then the context number, then
the order in which they became runnable. -/
def taskBefore (c : Cfg) (a b : Task) : Bool :=
  let ka := taskClass c a
  let kb := taskClass c b
  let da := taskDue c a
  let db := taskDue c b
  ka < kb || (ka == kb && (da < db || (da == db && a.ctx ≤ b.ctx)))

/-- A task put into a list in the order of R118. -/
def insertTask (c : Cfg) (t : Task) : List Task → List Task
  | [] => [t]
  | u :: r => if taskBefore c u t then u :: insertTask c t r else t :: u :: r

/-- The lane runs the first of its runnable tasks and keeps the others suspended (R118, R140); while a store waits for a
staged block (R85), no operation boundary comes. -/
def dispatchTasks (L : Lane) : Lane :=
  if L.wait.isSome then L
  else
    let all := (L.cur.toList ++ L.susp).foldr (insertTask L.cfg) []
    match all with
    | [] => { L with cur := none, susp := [] }
    | t :: r => { L with cur := some t, susp := r }

/-- A new task, which pre-empts lower work at the next operation boundary. -/
def addTask (L : Lane) (t : Task) : Lane := dispatchTasks { L with susp := L.susp ++ [t] }

/-- The tasks of a context taken away. -/
def dropTasks (L : Lane) (n : Nat) : Lane :=
  dispatchTasks { L with
    cur := L.cur.filter fun t => t.ctx != n
    susp := L.susp.filter fun t => t.ctx != n
    wait := L.wait.filter fun w => w.task.ctx != n }

/-! ## One instruction -/

/-- A context fault with its FAULT_CAUSE and, for FAIL, the reason; or the instruction's effect. -/
inductive FbRes where
  | fault (cause : Nat) (reason : Nat := 0)
  | done (d : FbDone)

/-- The task whose next instruction the lane's M may commit: one runs, the lane is neither fenced nor halted, except
for one armed step, and no store waits for a staged block (R45, R53, R85). -/
def fbTask? (s : State) (l : LaneId) : Option Task :=
  let L := lane s l
  if s.mod.pwrgd && !L.fenced && L.wait.isNone && (!L.dbg.halted || L.dbg.stepArm) then L.cur else none

/-- Privilege bit of a task (R448): 0 vital, 1 non-vital. -/
def taskPriv (L : Lane) (t : Task) : Nat :=
  match ctxCfg? L.cfg t.ctx with
  | some x => if x.vital then 0 else 1
  | none => 1

/-- The values VALUE_READ returns: the tunables and constants of a context as they stand (R408). -/
def valuesNow (L : Lane) (n : Nat) : Tbl Word :=
  match ctxCfg? L.cfg n with
  | none => []
  | some x => (L.cfg.tunables.filter fun t => t.ctx == n).foldl
      (fun v t => tblSet v t.index (laneWord L (x.base + t.off))) []

/-- The end of a task's run (R166): a cyclic task ends its phase L. -/
def endRun (L : Lane) (t : Task) : Lane :=
  let L1 := dispatchTasks { L with cur := none }
  match t.mark with
  | some _ => L1
  | none => modCtx L1 t.ctx fun c => { c with busy := false, vals := valuesNow L1 t.ctx }

/-- M commits an instruction (R35-R41, R142): the operations count, the items are signed, the stores wait in the
outbound buffer, and its entry, with the values it took in, waits for K. -/
def fbCommit (L : Lane) (t : Task) (d : FbDone) : Lane :=
  let p := taskPriv L t
  let evs := { cls := 0, n := d.weight, priv := p, addr := some t.pc : CtrEv } :: d.evs.map fun e => { e with priv := p }
  let L1 := { L with
    cur := d.task
    dbg := { L.dbg with stepArm := false }
    opsCount := L.opsCount + d.weight
    scrub := markStores L.scrub d.stores
    outBuf := d.stores.reverse ++ L.outBuf }
  let L2 := evs.foldl (fun L v => laneCount L 0 v) L1
  let L3 := enqueue L2 { ops := d.weight, act := .code d.task, ins := d.ins, items := d.items, evs := evs }
  let L4 := { L3 with winOps := L3.winOps + d.weight }
  match d.task with
  | some _ => L4
  | none => endRun L4 t

/-- The arguments of a CONTEXT_FAULT record (R531). -/
def faultArgs (t : Task) (cause reason : Nat) (w : Word) : List Byte :=
  leBytes 1 t.ctx ++ leBytes 1 cause ++ leBytes 1 t.stack.length ++ [0] ++ leBytes 4 t.pc.toNat ++
    leBytes 4 t.ib.toNat ++ leBytes 4 w.toNat ++ leBytes 2 reason ++ [0, 0] ++ leBytes 8 t.cyc.toNat

/-- The lane's part of a context fault (R183, R184): the run ends and the context is in SAFE_FAULT; its safe values are
published at that cycle's output point. -/
def faultLane (L : Lane) (t : Task) (cause : Nat) : Lane :=
  let L1 := dropTasks { L with dbg := { L.dbg with stepArm := false } } t.ctx
  modCtx L1 t.ctx fun c => { c with st := .safeFault, fault := cause, busy := false }

/-- A context fault (R183): the lane's part, the record of R531, and the CONTEXT event of the group when this lane is
the first of the seated lanes whose context faults (log 26). -/
def ctxFault (s : State) (l : LaneId) (t : Task) (cause reason : Nat) (w : Word) : State :=
  let first := (seated s).all fun k => k == l || (ctxRun (lane s k) t.ctx).st != .safeFault
  let s1 := setLane s l (faultLane (lane s l) t cause)
  let s2 := diag s1 l 2 (faultArgs t cause reason w)
  if first then ctxEvent s2 t.ctx ctxCauseState 3 else s2

/-- The checks at the start of a run (R139): an instance that does not match its type, or a type without code, is a context
fault before any instruction, with PC and instruction word 0 in its record. -/
def startCheck (s : State) (l : LaneId) (t : Task) (ty : Nat) : State :=
  match instCheck (lane s l) t.ctx t.ib.toNat ty with
  | .ok _ => s
  | .error cause => ctxFault s l { t with pc := 0 } cause 0 0

/-- The 4 KiB blocks some stores touch. -/
def storeBlocks (st : List (Nat × Byte)) : List Nat := (st.map fun x => x.1 / 4096).eraseDups

/-- The source that sends a block of the copy (R83, R90). -/
def srcOf (j : Join) (b : Nat) : Option LaneId := if b < 0x440 then j.srcLo else j.srcHi

/-- The blocks of a join's snapshot that a source has neither sent nor staged and that some stores touch (R85). -/
def toStage (j : Join) (l : LaneId) (st : List (Nat × Byte)) : List Nat :=
  (storeBlocks st).filter fun b => j.unsent.contains b && !j.staged.contains b && srcOf j b == some l

/-- M commits an instruction; in a copy source its stores to unsent blocks stage those blocks first, and wait when the
staging area is full (R85). -/
def commitOrWait (s : State) (l : LaneId) (t : Task) (d : FbDone) : State :=
  match s.grp.join with
  | none => setLane s l (fbCommit (lane s l) t d)
  | some j =>
    let bs := toStage j l d.stores
    if bs.isEmpty then setLane s l (fbCommit (lane s l) t d)
    else if (j.staged.filter fun b => srcOf j b == some l).length + bs.length ≤ Config.joinStaging then
      let s1 := setLane s l (fbCommit (lane s l) t d)
      { s1 with grp := { s1.grp with join := some { j with staged := j.staged ++ bs } } }
    else modLane s l fun L => { L with wait := some { task := t, done := d } }

/-- A store that waits for a staged block is committed when there is room, and the window it fills ends (R40, R85). -/
def resumeStore (s : State) (l : LaneId) : State :=
  match (lane s l).wait with
  | none => s
  | some w =>
    modLane (commitOrWait (modLane s l fun L => { L with wait := none }) l w.task w.done) l fun L => fullEqual (dispatchTasks L)

/-- Blocks of stores of the executive staged one by one: in a full staging area the oldest staged block leaves first (R85). -/
def stageBlocks (l : LaneId) (j : Join) : List Nat → Join
  | [] => j
  | b :: bs =>
    let mine := j.staged.filter fun k => srcOf j k == some l
    let j1 := if mine.length < Config.joinStaging then j
      else match mine.head? with
        | some k => { j with staged := j.staged.filter (· != k), unsent := j.unsent.filter (· != k) }
        | none => j
    stageBlocks l { j1 with staged := j1.staged ++ [b] } bs

/-- What the executives of the copy sources have stored in a step stages the unsent blocks it touches (R85): the cells that
have joined their outbound buffers since `s0`. -/
def stageExec (s0 s : State) : State :=
  match s.grp.join with
  | none => s
  | some j =>
    if j.step = 6 then
      let j1 := (j.srcLo.toList ++ j.srcHi.toList).eraseDups.foldl (fun j l =>
        let new := (lane s l).outBuf.length - (lane s0 l).outBuf.length
        stageBlocks l j (toStage j l ((lane s l).outBuf.take new))) j
      modGrp s fun g => { g with join := some j1 }
    else s

end Sys2Proof.Machine
end

