-- ==== Sys2Proof/Machine/Flags.lean ====
section
/-! DEFINITION. The status words: LANE_STATUS (R64), GROUP_STATUS (R104), CONTEXT_STATUS (R131) and STATION_STATUS
(R304), and a lane's status message to the hubs (R65). -/

namespace Sys2Proof.Machine

open Sys2Proof

/-- A word packed from fields of given widths, the first in the lowest bits. -/
def packFields : List (Nat × Nat) → Nat
  | [] => 0
  | (w, v) :: r => v % 2 ^ w + 2 ^ w * packFields r

/-- Ticks of 100 µs in 24 h. -/
def ticks24h : Nat := 864000000

/-- The code of LANE_STATUS.STATE (R64). -/
def laneStCode : LaneSt → Nat
  | .boot => 0
  | .seated => 1
  | .spareSplit => 2
  | .sparePaired => 3
  | .joining => 4
  | .selfTest => 5
  | .retired => 6
  | .halted => 7

/-- The code of GROUP_STATUS.STATE (R104). -/
def gstCode : GState → Nat
  | .forming => 0
  | .full => 1
  | .noSpare => 2
  | .degraded => 3
  | .safe => 4

/-- The code of JOIN_KIND (R104). -/
def joinKindCode : JoinKind → Nat
  | .fault => 1
  | .revert => 2
  | .rotation => 3

/-- The code of an operating state (R408, R421). -/
def opCode : OpState → Nat
  | .bench => 0
  | .startUp => 1
  | .service => 2
  | .recovery => 3
  | .safe => 4

/-- A lane number in a status field, 4 for none. -/
def laneField (x : Option LaneId) : Nat := x.elim 4 laneNum

/-- Reverts of a lane in the last 24 h (R94). -/
def reverts24 (s : State) (L : Lane) : Nat :=
  (L.reverts.filter fun t => s.grp.groupTime.toNat < t + ticks24h).length

/-- STATE of LANE_STATUS (R48, R55, R64): a retired lane reads RETIRED and a halted one HALTED, whatever else they are. -/
def shownSt (L : Lane) : LaneSt := if L.nv.retire ≠ 0 then .retired else if L.dbg.halted then .halted else L.st

/-- The LANE_STATUS word of a lane (R64). -/
def laneWordOf (s : State) (l : LaneId) : DWord :=
  let L := lane s l
  BitVec.ofNat 64 (packFields
    [(2, laneNum l), (1, (isWest l).toNat), (1, L.unlocked.toNat), (3, laneStCode (shownSt L)), (1, L.paceLow.toNat),
     (2, seatNumOf s.grp.seats l), (2, L.prefSeat), (3, L.verdict), (1, L.tb.onSpare.toNat), (3, L.fenceCause), (1, 0),
     (3, L.nv.retire), (2, min 3 (reverts24 s L)), (5, L.nv.remap.length), (2, 0), (10, min 1023 L.pace),
     (8, unsignedOf 8 L.temp), (8, min 255 L.mismatch), (6, 0)])

/-- The LANE_STATUS word a hub returns for a lane that has not reported since power good (R64). -/
def laneWordReset (l : LaneId) : DWord := BitVec.ofNat 64 (packFields [(2, laneNum l), (1, (isWest l).toNat)])

/-- Layout rule of GROUP_STATUS.LAYOUT_OK: canonical seating, or two seats of different layouts in DEGRADED (R104). -/
def layoutOk (g : Group) : Bool :=
  match g.seats.s1, g.seats.s2, g.seats.s3 with
  | some a, some b, some c => isWest a == isWest c && isWest a != isWest b && laneNum a < laneNum c
  | _, _, _ =>
    match seatedLanes g.seats with
    | [a, b] => g.gst == .degraded && isWest a != isWest b
    | _ => false

/-- Whole days until the next rotation falls due, 0-90 (R96, R104): 24 h after a rotation that was abandoned or whose join
failed, else the period after the last one. -/
def rotateDays (g : Group) : Nat :=
  let due := g.rotRetry.getD (g.rotFrom + g.settings.rotDays * ticks24h)
  min 90 ((due - g.groupTime.toNat) / ticks24h)

/-- The lanes that are retired, one bit each. -/
def retiredBits (s : State) : Nat :=
  (allLanes.map fun l => if (lane s l).nv.retire ≠ 0 then 2 ^ laneNum l else 0).foldl (· + ·) 0

/-- The GROUP_STATUS word (R104). -/
def groupWordOf (s : State) : DWord :=
  let g := s.grp
  let (step, kind, joiner) := match g.join with
    | none => (0, 0, 4)
    | some j => (j.step - 2, joinKindCode j.kind, laneNum j.joiner)
  BitVec.ofNat 64 (packFields
    [(3, gstCode g.gst), (3, laneField g.seats.s1), (3, laneField g.seats.s2), (3, laneField g.seats.s3),
     (3, laneField g.spare), (1, (layoutOk g).toNat), (3, step), (2, kind), (3, joiner), (4, retiredBits s),
     (3, g.safeCause), (1, (g.rotDeferred || g.rotD06).toNat), (8, min 255 g.lastGap), (8, min 255 g.fences),
     (8, min 255 g.joinFails), (7, rotateDays g), (1, 0)])

/-- The GROUP_STATUS word before any report (R104). -/
def groupWordReset : DWord :=
  BitVec.ofNat 64 (packFields [(3, 0), (3, 4), (3, 4), (3, 4), (3, 4), (1, 0), (3, 0), (2, 0), (3, 4)])

/-- Some tunable or constant of a context differs from its image value (R131). -/
def anyChanged (L : Lane) (n : Nat) : Bool :=
  match ctxCfg? L.cfg n with
  | none => false
  | some x => (L.cfg.tunables.filter fun t => t.ctx == n).any fun t =>
      laneNat L (x.base + t.off) 4 != initWord (activeBank L.nv).data (x.base + t.off)

/-- The CONTEXT_STATUS word of a context as a lane sees it (R131); of an absent context the number alone. -/
def ctxWordOf (L : Lane) (n : Nat) : DWord :=
  match ctxCfg? L.cfg n with
  | none => BitVec.ofNat 64 (n % 256)
  | some x =>
    let c := ctxRun L n
    BitVec.ofNat 64 (packFields
      [(8, n), (1, x.vital.toNat), (3, ctxStCode c.st), (3, x.period), (1, 0), (7, x.offset), (1, (anyChanged L n).toNat),
       (2, c.lateRun), (4, c.fault), (2, 0), (16, min 65535 c.lateCount), (8, (Config.loadPct n).toNat),
       (4, (L.cfg.marks.filter fun m => m.ctx == n).length), (4, 0)])

/-- The STATION_STATUS word of a station as a lane sees it (R304). -/
def stnWordOf (s : State) (L : Lane) (addr : Nat) : DWord :=
  let e := L.cfg.stations.find? fun x => x.addr == addr
  let v := tblGetD L.stn addr {}
  BitVec.ofNat 64 (packFields
    [(12, addr), (1, (2048 ≤ addr : Bool).toNat), (1, (e.any (·.vital) || L.cfg.vitalIds.any fun v => v.1 == addr : Bool).toNat),
     (1, (s.grp.grants.any fun g => g.addr == addr).toNat), (1, e.isSome.toNat), (3, v.state), (1, v.chA.toNat),
     (1, v.chB.toNat), (1, v.outSafe.toNat), (1, v.localFlt.toNat), (1, v.ctxSafe.toNat), (8, v.dlAge), (8, v.ulAge),
     (8, min 255 v.codeFails), (8, min 255 v.staleEvts), (8, e.elim 0 (·.ctx))])

/-- The stations a lane reports on: the configured ones, those with a granted slot, and those it has a view of from before
(R304). -/
def stnAddrs (s : State) (L : Lane) : List Nat :=
  L.cfg.stations.map (·.addr) ++
    ((s.grp.grants.map (·.addr)) ++ L.stn.map (·.1)).eraseDups.filter fun a => !L.cfg.stations.any fun x => x.addr == a

/-- The tile word a lane holds from its latest snapshot of a tile (R341); before one, the Reset values. -/
def tileWordSeen (L : Lane) (t : TileId) : DWord :=
  match (match t with | .t0 => L.snap0 | .t1 => L.snap1) with
  | some z => z.word
  | none => BitVec.ofNat 64 (tileNum t)

/-- The channel words a lane holds from its latest snapshot of a tile (R341). -/
def chanWordsSeen (L : Lane) (t : TileId) : List (BitVec 16) :=
  match (match t with | .t0 => L.snap0 | .t1 => L.snap1) with
  | some z => z.chans.map (·.status)
  | none => List.replicate 16 0

/-- The firmware safety-major version a lane runs (R465): the package's that wrote the active bank. -/
def runMajor (nv : LaneNv) : Nat := ((activeBank nv).major.getD Config.safetyMajor).toNat

/-- The status message a lane builds at one moment (R65, R104). -/
def statusMsg (s : State) (l : LaneId) : StatusMsg :=
  let L := lane s l
  { round := s.grp.round, lane := laneWordOf s l, group := groupWordOf s,
    tiles := ⟨tileWordSeen L .t0, tileWordSeen L .t1⟩, chans := ⟨chanWordsSeen L .t0, chanWordsSeen L .t1⟩,
    ctxs := (L.cfg.ctxs.filter fun x => x.num != 0).map fun x => (x.num, ctxWordOf L x.num),
    stns := (stnAddrs s L).map fun a => (a, stnWordOf s L a),
    op := opCode s.mod.op, major := runMajor L.nv, isSealed := isSealed s }

end Sys2Proof.Machine
end

