-- ==== Sys2Proof/Machine/Reply.lean ====
section
/-! DEFINITION. Host commands as a hub handles them: fetch and checks (R392, R396, R399-R403), replies, tags, outcomes of
posted commands (R441, R575) and the stamping of actions (R19, R124). -/

namespace Sys2Proof.Machine

open Sys2Proof

/-! ## Tags (R400, R439, R441) -/

/-- The group with a hub's tag records replaced. -/
def setTags (g : Group) (h : HubId) (ts : List TagRec) : Group :=
  match h with
  | .h0 => { g with tags0 := ts }
  | .h1 => { g with tags1 := ts }

/-- The record of a command that has not ended changed. -/
def modTag (s : State) (h : HubId) (tag : Word) (f : TagRec → TagRec) : State :=
  modGrp s fun g => setTags g h ((tagsOf g h).map fun r => if r.tag = tag && !r.done then f r else r)

/-- The last 1,024 of some records: the tag window of a hub (R400). -/
def tagWindow (ts : List TagRec) : List TagRec := ts.drop (ts.length - 1024)

/-- A fetched tag joins the window; before it only the records of commands that have not ended are kept (R399, R400). -/
def pushTag (s : State) (h : HubId) (r : TagRec) : State :=
  modGrp s fun g =>
    let ts := tagsOf g h ++ [r]
    setTags g h ((ts.take (ts.length - 1024)).filter (fun r => !r.done) ++ tagWindow ts)

/-- The tag is in the window of the hub, or in that of its peer as it was when that one was lost (R400, R442). -/
def tagKnown (s : State) (h : HubId) (tag : Word) : Bool :=
  (tagWindow (tagsOf s.grp h)).any (fun r => r.tag == tag) ||
    (tagWindow (tagsOf s.grp (peerHub h))).any fun r => r.tag == tag && r.moved

/-! ## Outcomes of posted commands (R400, R441, R575) -/

/-- The hub that reports on an open command: the one that fetched it, or the survivor once that one was lost (R441). -/
def reporter (s : State) (h : HubId) (tag : Word) : HubId :=
  if (tagsOf s.grp h).any fun r => r.tag == tag && !r.done && r.moved then peerHub h else h

/-- The OUTCOME event of a posted command (R575): recorded with its tag, and written by the hub that holds it or serves
for it. -/
def outcome (s : State) (h : HubId) (tag : Word) (status : Nat) (body : List Byte) : State :=
  let s1 := modTag s h tag fun r => { r with status := some status, result := body, done := true }
  event s1 [reporter s h tag] 0x8008 none tag 0 (leBytes 2 status ++ body)

/-! ## Status codes (R401) -/

/-- OK. -/
def stOk : Nat := 0x0000
/-- ACCEPTED. -/
def stAccepted : Nat := 0x0001
/-- BAD_LENGTH. -/
def stBadLength : Nat := 0x0011
/-- BAD_HANDLE. -/
def stBadHandle : Nat := 0x0012
/-- STALE_HANDLE. -/
def stStale : Nat := 0x0013
/-- BAD_VALUE. -/
def stBadValue : Nat := 0x0014
/-- BAD_HEADER. -/
def stBadHeader : Nat := 0x0015
/-- DUPLICATE_TAG. -/
def stDuplicate : Nat := 0x0016
/-- NOT_PERMITTED_IN_STATE. -/
def stNotPermitted : Nat := 0x0020
/-- SEALED. -/
def stSealed : Nat := 0x0021
/-- NO_RESOURCE. -/
def stNoResource : Nat := 0x0030
/-- OUTCOME_UNKNOWN. -/
def stUnknown : Nat := 0x0040
/-- REMOTE_REJECTED. -/
def stRejected : Nat := 0x0050
/-- REMOTE_TIMEOUT. -/
def stTimeout : Nat := 0x0051
/-- UPDATE_HEADER_REFUSED. -/
def stHeaderRefused : Nat := 0x0060

/-! ## Replies (R396, R398, R427) -/

/-- An entry written to a hub's reply ring: class 1 counts, the shadow follows, and vector 0 is raised, at once for a
command with IRQ (R395, R399, R426). Its bursts take the item that the command has had (R429, R431). -/
def replyEntry (s : State) (h : HubId) (e : RingEntry) : State :=
  modHub s h fun H =>
    ringWrote .command H.rpl (ringWrite H.rpl e)
      (raiseVec (writeShadow (hubCount { H with rpl := ringWrite H.rpl e } 1 1)) 0 (e.flags.testBit 1))

/-- The FLAGS byte of a command header. -/
def hdrFlags (hd : Hdr) : Nat := hd.fence.toNat + 2 * hd.irq.toNat + 4 * hd.flagRsv

/-- A final reply with its handle: the tag's record ends. -/
def answerH (s : State) (hd : Hdr) (opcode : Nat) (handle : Word) (status : Nat) (data : List Byte) : State :=
  let s1 := modTag s hd.hub hd.tag fun r =>
    { r with status := some status, replied := true, done := true, result := data, handle := handle }
  replyEntry s1 hd.hub
    { code := opcode, flags := hdrFlags hd, tag := hd.tag, handle := handle, status := status, data := data }

/-- A final reply. -/
def answer (s : State) (hd : Hdr) (opcode status : Nat) (data : List Byte) : State :=
  answerH s hd opcode hd.handle status data

/-- The ACCEPTED reply of a posted command: its record stays open until the outcome (R400, R575). -/
def accept (s : State) (hd : Hdr) (opcode : Nat) : State :=
  let s1 := modTag s hd.hub hd.tag fun r => { r with replied := true, posted := true }
  replyEntry s1 hd.hub
    { code := opcode, flags := hdrFlags hd, tag := hd.tag, handle := hd.handle, status := stAccepted, data := [] }

/-! ## RUNNING (R393, R394, R397, R425, R446) -/

/-- PEER_ALIVE of a hub; a change raises vector 2 (R421, R425). -/
def setAlive (s : State) (h : HubId) (v : Bool) : State :=
  modHub s h fun H => if H.peerAlive = v then H else raiseVec { H with peerAlive := v } 2

/-- A ring with its indices at 0; what it holds back stays (R394, R415). -/
def ringZero (r : Ring) : Ring := { r with prod := 0, cons := 0, out := [] }

/-- Every index and doorbell of the ring registers at 0; what the hub has not fetched it never will (R393, R394). -/
def zeroIndices (H : Hub) : Hub :=
  { H with ring := [], due := false, cmdProd := 0, cmdCons := 0, rpl := ringZero H.rpl, sev := ringZero H.sev, evchCons := Vector.replicate 64 0,
           evch := H.evch.map fun e => (e.1, { e.2 with cons := 0 }) }

/-- The bases and sizes are valid (R391, R393). -/
def ringsValid (H : Hub) : Bool :=
  let size (n : Nat) : Bool := 4 ≤ n && n ≤ 14
  H.cmdBase.toNat % 4096 == 0 && H.rpl.base.toNat % 4096 == 0 && H.sev.base.toNat % 4096 == 0 &&
    size H.cmdSize.toNat && size H.rplSize.toNat && size H.sevSize.toNat

/-- Entries other than NOPs that a ring has got. -/
def entriesNew (old new : Ring) : Nat := ((new.out.drop old.out.length).filter fun e => e.code != 0).length

/-- A hub after n events were written: counted, the shadow and the vector follow (R395, R425, R454). -/
def eventsWritten (H : Hub) (n vec : Nat) : Hub :=
  if n = 0 then H else raiseVec (writeShadow (hubCount H 2 n)) vec

/-- The system ring has got room or runs again: what waits for it is written (R397). -/
def drainSev (round : DWord) (H : Hub) : Hub :=
  let r := ringDrain H.sev round
  ringWrote .event H.sev r (eventsWritten { H with sev := r } (entriesNew H.sev r) 1)

/-- An event channel's ring, own or adopted, likewise. -/
def drainChan (round : DWord) (peer : Bool) (idx : Nat) (H : Hub) : Hub :=
  let t := if peer then H.peerEvch else H.evch
  match tblGet t idx with
  | none => H
  | some x =>
    let r := ringDrain x round
    let H1 := if peer then { H with peerEvch := tblSet H.peerEvch idx r } else { H with evch := tblSet H.evch idx r }
    ringWrote .event x r (eventsWritten H1 (entriesNew x r) (4 + idx % 12))

/-- The event channels a hub serves and the host has not to release first: adopted or not, and the index. -/
def servedChans (s : State) (h : HubId) : List (Bool × Nat) :=
  (s.grp.handles.filter fun x => x.server == h && !x.held && handleType x.word == 2).map
    fun x => (x.server != x.hub, handleIdx x.word)

/-- RUNNING goes to 1 (R394): vector 2, the other hub's PEER_ALIVE (R445), and every ring that waited (R397). -/
def ringsRun (s : State) (h : HubId) : State :=
  let s1 := modHub s h fun H =>
    let H1 := { H with running := true, lost := false, linkGone := false,
                       rpl := { H.rpl with n := H.rplSize.toNat }, sev := { H.sev with n := H.sevSize.toNat } }
    raiseVec H1 2
  let s2 := setAlive s1 (peerHub h) true
  (servedChans s2 h).foldl (fun s x => modHub s h (drainChan s.grp.round x.1 x.2)) (modHub s2 h (drainSev s2.grp.round))

/-- ENABLE goes to 1: the bases and sizes are checked; while RUNNING still waits for replies, it is acted on after
(R394). -/
def ringsEnable (s : State) (h : HubId) : State :=
  let s1 := modHub s h fun H => { H with enable := true }
  let H := hub s1 h
  if H.running || !ringsValid H then s1 else ringsRun s1 h

/-- RUNNING goes to 0 once no fetched command waits for its reply: after ENABLE went to 0 the indices go to 0; after a
failed fetch vector 3 is raised (R394, R446). -/
def ringsEnd (s : State) (h : HubId) : State :=
  let H := hub s h
  match H.draining with
  | none => s
  | some z =>
    if !H.pendRd.isEmpty then s
    else
      let s1 := setHub s h (raiseVec { H with running := false, draining := none } 2)
      let s2 := modHub s1 h fun H => if z then zeroIndices H else raiseVec H 3
      let s3 := setAlive s2 (peerHub h) false
      if z && H.enable then ringsEnable s3 h else s3

/-- A command that waits for its final reply gets it (R303), written as long as the link takes it (R441); a hub that waits for
it stops its rings (R394). -/
def endRead (s : State) (h : HubId) (tag : Word) (status : Nat) (data : List Byte) : State :=
  let s0 := modTag s h tag fun r => { r with status := some status, result := data }
  match (hub s h).pendRd.find? fun w => w.tag == tag with
  | none => modTag s0 h tag fun r => { r with done := true }
  | some w =>
    let s1 := modHub s0 h fun H => { H with pendRd := H.pendRd.filter fun x => x.tag != tag }
    let s2 := modTag s1 h tag fun r => { r with replied := (hub s h).pcieUp, done := true }
    let e : RingEntry :=
      { code := w.opcode, flags := w.flags, tag := tag, handle := w.handle, status := status, data := data }
    ringsEnd (replyEntry s2 h e) h

/-- A service request that is not delivered any more ends with OUTCOME_UNKNOWN: a read by its reply, a write by its outcome (R307,
R415, R575). -/
def endUnknown (s : State) (q : SvcReq) : State :=
  if q.write then outcome s q.hub q.tag stUnknown [] else endRead s q.hub q.tag stUnknown []

/-- A stamped service request as the station's queue would hold it. -/
def reqOf (a : Action) : Option SvcReq := match a.kind with
  | .service _ w p d n => some { write := w, param := p, data := d, len := n, hub := a.hub, tag := a.tag, handle := a.handle,
                                 round := a.slot }
  | _ => none

/-- The stamped service requests among some actions are dropped. -/
def dropServices (s : State) (as : List Action) : State := (as.filterMap reqOf).foldl endUnknown s

/-! ## Checks (R402, R403, R413) -/

/-- What R408, R413 and R429 fix for a command: opcode, longest reply, the items it takes, handle type (none for handle 0, 0 for any but a session)
and the operating states that allow it. -/
structure CmdRule where
  opcode  : Nat
  maxRep  : Nat := 8
  items   : Nat := 1
  ty      : Option Nat := none
  allowed : OpState → Bool

/-- Allowed in every state. -/
def inAll (_ : OpState) : Bool := true
/-- Allowed but in START-UP. -/
def notStart (o : OpState) : Bool := o != .startUp
/-- Allowed in BENCH, SERVICE and RECOVERY. -/
def inRun (o : OpState) : Bool := o == .bench || o == .service || o == .recovery
/-- Allowed in BENCH. -/
def inBench (o : OpState) : Bool := o == .bench
/-- Allowed in SAFE. -/
def inSafe (o : OpState) : Bool := o == .safe

/-- An open handle that a hub serves. -/
def openHandle (s : State) (h : HubId) (w : Word) : Option Handle :=
  s.grp.handles.find? fun x => x.word == w && x.server == h

/-- The handle check (R402, R403, R407): none when it passes. -/
def handleCheck (s : State) (h : HubId) (ty : Option Nat) (w : Word) : Option Nat :=
  match ty with
  | none => if w = 0 then none else some stBadHandle
  | some t =>
    if w = 0 || (if t = 0 then handleType w = 6 else handleType w ≠ t) then some stBadHandle
    else if (openHandle s h w).isSome then none
    else if s.grp.handles.any fun x =>
        x.server == h && handleType x.word == handleType w && handleIdx x.word == handleIdx w then some stStale
    else some stBadHandle

/-- The first check that fails (R402). -/
def refusal (s : State) (c : CmdRule) (hd : Hdr) (lenOk : Bool) (sl : Option Nat) : Option Nat :=
  if hd.version ≠ 1 || hd.flagRsv ≠ 0 || hd.status ≠ 0 then some stBadHeader
  else if tagKnown s hd.hub hd.tag then some stDuplicate
  else match handleCheck s hd.hub c.ty hd.handle with
    | some e => some e
    | none =>
      if !lenOk then some stBadLength
      else match sl with
        | some e => some e
        | none => if c.allowed s.mod.op then none else some stNotPermitted

/-! ## Fetch (R392, R393, R396, R399) -/

/-- Units of a command entry. -/
def hdrUnits (hd : Hdr) : Nat := (16 + hd.plen + 63) / 64

/-- Room the reply ring keeps for what waits for a reply (R396): 2 units for a service read, 64 bytes of data at most, and 1
for an UPDATE_BLOCK. -/
def heldUnits (H : Hub) : Nat := (H.pendRd.map fun w => if w.opcode = 0x0802 then 2 else 1).foldl (· + ·) 0

/-- The entry stands next in a command ring that its hub reads: the rings run, the host has made the entry available, and no
earlier one waits (R393, R414). -/
def nextInRing (s : State) (hd : Hdr) : Bool :=
  let H := hub s hd.hub
  hubServes H && ringsOn H && H.pcieUp && hdrUnits hd ≤ (H.cmdProd - H.cmdCons).toNat && (H.due || H.ring.isEmpty)

/-- The hub fetches the command: it stands next in the ring, reply room is reserved, the command class has the items free that it
takes (R429), so that at most 128 items are in flight, and a FENCE finds every earlier command ended (R396, R399). -/
def fetchable (s : State) (hd : Hdr) (maxRep : Nat) (items : Nat := 1) : Bool :=
  let H := hub s hd.hub
  nextInRing s hd && ringRoom H.rpl ((16 + maxRep + 63) / 64 + heldUnits H) && itemFree s hd.hub .command items &&
    (!hd.fence || inFlight s hd.hub == 0)

/-- The units of a fetched entry are free for the host (R393); class 0 counts (R454), and a gated firmware core resumes (R498). The
read is cut as R431 says. -/
def fetchCmd (s : State) (hd : Hdr) : State :=
  modHub s hd.hub fun H =>
    readDone .command (ringBursts maxRead H.cmdBase H.cmdSize.toNat H.cmdCons (hdrUnits hd))
      (hubCount { ungate .firmware H with cmdCons := H.cmdCons + BitVec.ofNat 32 (hdrUnits hd), due := false } 0 1)

/-- An entry that cannot be fetched yet waits in the ring, behind those before it (R396, R414). -/
def waitInRing (s : State) (e : RingCmd) : State :=
  modHub s e.hd.hub fun H => if hubServes H then { H with ring := H.ring ++ [e] } else H

/-- The head of a hub's ring taken for the fetch. -/
def popRing (s : State) (h : HubId) : State := modHub s h fun H => { H with ring := H.ring.drop 1, due := true }

/-- The head of a hub's ring, where the hub can fetch it now; a NOP needs no room for a reply (R392, R396). -/
def ringReady (s : State) (h : HubId) : Option RingCmd :=
  match (hub s h).ring with
  | [] => none
  | e :: _ =>
    let t := popRing s h
    if s.mod.pwrgd && (if e.opcode = 0 then nextInRing t e.hd else fetchable t e.hd e.maxRep e.items) then some e else none

/-- The entry that a hub fetches once nothing else waits to be done, and the state in which it does. -/
def fetchNext (s : State) : Option (State × RingCmd) :=
  match ringReady s .h0 with
  | some e => some (popRing s .h0, e)
  | none => (ringReady s .h1).map fun e => (popRing s .h1, e)

/-- A fetched command refused by a check: its tag joins the last 1,024 as ended, whatever older command has the same (R400,
R402). -/
def refuse (s : State) (hd : Hdr) (opcode status : Nat) : State :=
  replyEntry (pushTag s hd.hub { tag := hd.tag, opcode := opcode, handle := hd.handle, status := some status,
                                 replied := true, done := true }) hd.hub
    { code := opcode, flags := hdrFlags hd, tag := hd.tag, handle := hd.handle, status := status, data := [] }

/-- A command: fetched, its tag registered with the lanes, checked, and refused or carried out (R396, R402, R439). A
command that its hub cannot fetch yet waits in the ring. -/
def hostCmd (i : Instr) (c : CmdRule) (hd : Hdr) (lenOk : State → Bool) (sl : State → Option Nat) (f : State → State)
    (s : State) : State :=
  if fetchable s hd c.maxRep c.items then
    let r := refusal s c hd (lenOk s) (sl s)
    let s1 := fetchCmd s hd
    match r with
    | some e => refuse s1 hd c.opcode e
    | none => f (pushTag s1 hd.hub { tag := hd.tag, opcode := c.opcode, handle := hd.handle })
  else waitInRing s { hd := hd, maxRep := c.maxRep, items := c.items, opcode := c.opcode, cmd := some i }

/-- No seal check. -/
def anySeal (_ : State) : Option Nat := none

/-! ## Handles (R403-R407) -/

/-- The slot of a handle as a key: type, hub and index. -/
def slotKey (ty : Nat) (h : HubId) (idx : Nat) : Nat := (ty * 2 + hubNum h) * 2 ^ 20 + idx

/-- The generation of a slot (R405). -/
def slotGen (g : Group) (ty : Nat) (h : HubId) (idx : Nat) : Nat :=
  tblGetD g.gens (slotKey ty h idx) (g.startCount % 255 + 1)

/-- The generation after a destroy (R405). -/
def nextGen (n : Nat) : Nat := if n = 255 then 1 else n + 1

/-- The handle word of a type, generation and index (R403). -/
def handleWord (ty gen idx : Nat) : Word := BitVec.ofNat 32 (ty * 2 ^ 28 + gen * 2 ^ 20 + idx)

/-- A stamped action without its handle where that is the one destroyed: a write that fails is no longer reported (R299). -/
def quietAct (w : Word) (a : Action) : Action := match a.kind with
  | .service _ _ _ _ _ => if a.handle == w then { a with handle := 0 } else a
  | _ => a

/-- The service requests of a station without the handle destroyed (R299). -/
def quietSvc (w : Word) (v : SvcSt) : SvcSt :=
  { v with queue := v.queue.map fun q => if q.handle == w then { q with handle := 0 } else q }

/-- Some open handle, without it: its slot goes to its next generation (R405, R407). No request that is still under way
names it any more, so a later handle with the same word gets none of its reports (R299). -/
def closeHandle (g : Group) (x : Handle) : Group :=
  let ty := handleType x.word
  let idx := handleIdx x.word
  { g with svc := g.svc.map fun e => (e.1, quietSvc x.word e.2), actions := g.actions.map (quietAct x.word), handles := g.handles.filter (fun y => !(y.word == x.word && y.hub == x.hub)),
           gens := tblSet g.gens (slotKey ty x.hub idx) (nextGen (slotGen g ty x.hub idx)) }

/-- The key of a mapping in the hub that serves it: adopted ones apart from its own. -/
def mapKey (x : Handle) : Nat := x.word.toNat + (if x.server = x.hub then 0 else 2 ^ 32)

/-- The host side of a hub that starts again: RUNNING 0 and no handles (R445). -/
def hostGone (H : Hub) : Hub :=
  { zeroIndices (dropScans [3] H) with
    enable := false, running := false, draining := none, evch := [], peerEvch := [], streams := [], maps := [],
    pendRd := [], pools := {}, serving := false, reported := false, lost := false, linkGone := !H.pcieUp,
    sev := { H.sev with prod := 0, cons := 0, out := [], held := [], drops := 0 } }

/-! ## Stamping (R19, R124) -/

/-- The first round boundary at least 1 ms after a moment in µs after the latest boundary. -/
def firstRound (s : State) (us : Nat) : Nat :=
  let d := 100 * roundTicks s
  s.grp.round.toNat + (1000 + min us (d - 1) + d - 1) / d

/-- The first cycle of a context that starts at or after a round. -/
def firstCycle (c : CtxCfg) (r : Nat) : Nat :=
  let k := periodRounds c.period
  (r - c.offset + (k - 1)) / k

/-- Requests stamped for a cycle on a channel. -/
def requestsAt (s : State) (ctx chan idx : Nat) : Nat :=
  let p (a : Action) : Bool := match a.kind with
    | .request n c _ => n == ctx && c == chan && a.slot.toNat == idx
    | _ => false
  ((s.grp.actions ++ s.hubs.a.outbox ++ s.hubs.b.outbox).filter p).length

/-- The first cycle from idx on with a free delivery place on a channel; `fuel` bounds the search. -/
def freeCycle (s : State) (ctx chan depth : Nat) : Nat → Nat → Nat
  | 0, idx => idx
  | fuel + 1, idx => if requestsAt s ctx chan idx < depth then idx else freeCycle s ctx chan depth fuel (idx + 1)

/-- Every action stamped and not yet applied. -/
def queuedActions (s : State) : List Action := s.grp.actions ++ s.hubs.a.outbox ++ s.hubs.b.outbox

/-- An action stamped by a hub for a slot: sent to the lanes, recorded with its tag (R124, R439). -/
def stampAct (s : State) (hd : Hdr) (slot : Nat) (k : ActKind) : State :=
  let a : Action := { hub := hd.hub, order := s.grp.order, tag := hd.tag, handle := hd.handle,
                      slot := BitVec.ofNat 64 slot, kind := k }
  let s1 := modHub (modGrp s fun g => { g with order := g.order + 1 }) hd.hub fun H => { H with outbox := H.outbox ++ [a] }
  modTag s1 hd.hub hd.tag fun r => { r with stamped := some a.slot, result := leBytes 8 slot }

/-- A stamped command: the reply is OK with the slot (R408). -/
def stampReply (s : State) (hd : Hdr) (opcode slot : Nat) (k : ActKind) : State :=
  answer (stampAct s hd slot k) hd opcode stOk (leBytes 8 (BitVec.ofNat 64 slot).toNat)

end Sys2Proof.Machine
end

