-- ==== Sys2Proof/Machine/Roles.lean ====
section
/-! DEFINITION. Roles in the group: outcomes of posted commands, group state, fences, SAFE, retirement, joins and their
failure, verdicts (R45-R49, R67-R105, R516-R519, R575). -/

namespace Sys2Proof.Machine

open Sys2Proof

/-! ## Group and operating state (R100-R102, R516-R517) -/

/-- The cause byte of a GROUP event: 1 formation, 2 fence, 3 verdict, 4 join, 5 SAFE, 6 restart (log 25). -/
def grpEvent (s : State) (cause : Nat) : State :=
  event s bothHubs 0x8001 none 0 0 (leBytes 1 (gstCode s.grp.gst) ++ leBytes 1 cause)

/-- The group state set; a change raises a GROUP event (R102). -/
def setGst (s : State) (g : GState) (cause : Nat) : State :=
  if s.grp.gst = g then s else grpEvent (modGrp s fun x => { x with gst := g }) cause

/-- A cause of R517 is in progress. -/
def recovering (s : State) : Bool :=
  s.grp.join.isSome || s.mod.activating || s.hubs.a.adoptAt.isSome || s.hubs.b.adoptAt.isSome

/-- SERVICE and RECOVERY follow the causes of R517; the other operating states stay. -/
def refreshOp (s : State) : State :=
  match s.mod.op with
  | .service => if recovering s then { s with mod := { s.mod with op := .recovery } } else s
  | .recovery => if recovering s then s else { s with mod := { s.mod with op := .service } }
  | _ => s

/-- The moment in µs after the latest boundary of an event whose moment no command gives: free below the round length
(log 20). -/
def freeMoment (s : State) : Nat := Config.freeUs s.free % (100 * roundTicks s)

/-- The state with one free value used. -/
def useFree (s : State) : State := { s with free := s.free + 1 }

/-- The duration in µs from a tick count and a moment to another (R531, R104). -/
def spanUs (t0 u0 t1 u1 : Nat) : Nat := (t1 * 100 + u1) - (t0 * 100 + u0)

/-- The RECOVERY_END record in every lane that is not retired (R531). -/
def recoveryEnd (s : State) (kind outc cause : Nat) (startRd : DWord) (us : Nat) : State :=
  (allLanes.filter fun l => (lane s l).st != .retired).foldl (fun s l =>
    diag s l 5 (leBytes 1 kind ++ leBytes 1 outc ++ leBytes 1 cause ++ [0] ++ leBytes 8 startRd.toNat ++ leBytes 4 us)) s

/-- A join ended (R531). -/
def joinEndRecord (s : State) (j : Join) (outc cause endUs : Nat) : State :=
  recoveryEnd s (joinKindCode j.kind) outc cause j.startRd
    (spanUs j.start j.startUs s.grp.groupTime.toNat endUs)

/-- The cycle of the longest vital context that runs now; without one, the round (R103, R113). -/
def vitalCycle (s : State) : DWord :=
  match longestVital s.grp.cfg with
  | none => s.grp.round
  | some x => BitVec.ofNat 64 (cycleIndex x s.grp.round.toNat)

/-! ## Messages over the straits (R16) -/

/-- The order in which a strait sends what waits (R16): membership messages, then contributions. Join copies, repairs and
background copies pass at their own commands. -/
def msgClass : StraitMsg → Nat
  | .contribution _ _ => 1
  | .resend _ _ _ _ => 1
  | _ => 0

/-- A message put behind those of its class and of the classes before it (R16). -/
def sendMsg (g : Group) (m : StraitMsg) : Group :=
  { g with transit := (g.transit.filter fun x => msgClass x ≤ msgClass m) ++ m ::
      g.transit.filter fun x => msgClass m < msgClass x }

/-- Several messages sent in order. -/
def sendAll (g : Group) (ms : List StraitMsg) : Group := ms.foldl sendMsg g

/-! ## Debug lock (R52, R56) -/

/-- A lane that leaves BENCH: breakpoints cleared, a halt resumed, the port locked (R56). -/
def lockDebug (L : Lane) : Lane := { L with unlocked := false, dbg := {}, kHalted := false }

/-! ## SAFE (R77, R81, R100, R105, R531) -/

/-- A lane in SAFE: gates released, words to the hubs stopped, no task (R100, R458). -/
def safeLane (L : Lane) : Lane :=
  { L with gatesOn := false, gates := ⟨none, none⟩, hubWords := false, cur := none, susp := [], outBuf := [],
           dq := [], winOps := 0, sigM := 0, sigK := 0, wait := none, kCur := none, prove := false, proveSoon := false }

/-- A stamped setting: the executive goes on in SAFE, and it takes effect there too (R412, R413). -/
def isSetting (a : Action) : Bool := match a.kind with
  | .setting _ _ => true
  | .factory => true
  | _ => false

/-- The group enters SAFE with a cause: the SAFE record, the operating state, the join and every stamped action of the
run but the settings dropped, a waiting rotation answered; a group that fails to form again is still one that was in BENCH (R81, R100, R105, R373, R415, R518, R531, R575). -/
def enterSafe (s : State) (cause : Nat) : State :=
  if s.grp.gst = .safe then s
  else
    let seats0 := s.grp.seats
    let arg := leBytes 1 cause ++ leBytes 1 (laneField seats0.s1) ++ leBytes 1 (laneField seats0.s2) ++
      leBytes 1 (laneField seats0.s3) ++ leBytes 1 (min 255 s.grp.fences)
    let wasBench := s.mod.op == .bench
    let join := s.grp.join
    let s1 := modLanes s allLanes fun _ L => (if wasBench then lockDebug (safeLane L) else safeLane L)
    let s2 := { s1 with mod := { s1.mod with op := .safe, activating := false,
                                             wasBench := wasBench || (s1.mod.op == .startUp && s1.mod.wasBench) } }
    let s3 := modGrp s2 fun g => { g with safeCause := cause, join := none, actions := g.actions.filter isSetting, rotDeferred := false,
                                          scrub := { g.scrub with active := false }, holdoff := [], revertDue := none }
    let quiet (H : Hub) : Hub := { H with tele := [], grantTele := [], outbox := H.outbox.filter isSetting }
    let s4 := dropServices { s3 with hubs := ⟨quiet s3.hubs.a, quiet s3.hubs.b⟩ } (queuedActions s)
    let s5 := setGst s4 .safe 5
    let s6 := (allLanes.filter fun l => (lane s5 l).st != .retired).foldl (fun s l => diag s l 6 arg) s5
    match join with
    | none => s6
    | some j =>
      let s7 := joinEndRecord (useFree s6) j 1 0 (freeMoment s6)
      match j.tag with
      | none => s7
      | some (h, tag) => outcome s7 h tag stNotPermitted (leBytes 8 (groupWordOf s7).toNat)

/-! ## Roles of lanes -/

/-- Canonical seating of three lanes (R68). -/
def canonical (ls : List LaneId) : SeatMap :=
  match ls with
  | [a, b, c] =>
    if isWest a = isWest b then ⟨some a, some c, some b⟩
    else if isWest a = isWest c then ⟨some a, some b, some c⟩
    else ⟨some b, some a, some c⟩
  | [a, b] => ⟨some a, some b, none⟩
  | _ => ⟨none, none, none⟩

/-- A strait between two lanes is marked failed (R74). -/
def straitFailed (g : Group) (a b : LaneId) : Bool :=
  g.straitFail.any fun x => (x.1 == a && x.2 == b) || (x.1 == b && x.2 == a)

/-- Two lanes reach each other: directly, or over a failed strait by relay through a third seated lane (R74). -/
def linked (s : State) (a b : LaneId) : Bool :=
  !straitFailed s.grp a b ||
    (seated s).any fun k => k != a && k != b && !straitFailed s.grp a k && !straitFailed s.grp k b

/-- A lane may join in the place of `leaver`, or in a vacant seat (R82, R90, R472): not retired, not fenced or in
self-test, its latest full verdict TRANSIENT, its image verified, its supply in range, its image loaded, and a working
strait to a seated lane that could be a copy source, since the copy is never relayed. -/
def mayJoinFor (s : State) (l : LaneId) (leaver : Option LaneId) : Bool :=
  let L := lane s l
  L.nv.retire == 0 && !L.fenced && !L.selfTest.running && L.verdict == 1 && L.verified && L.supplyOk && L.loaded &&
    !L.barred && (seated s).any fun k => leaver != some k && !straitFailed s.grp l k

/-- A lane may join a vacant seat (R82). -/
def mayJoin (s : State) (l : LaneId) : Bool := mayJoinFor s l none

/-- Some lane is halted by the debugger: no join, revert or rotation starts (R55). -/
def anyHalted (s : State) : Bool := allLanes.any fun l => (lane s l).dbg.halted

/-- The group state from its seats: three seats filled with an eligible spare, or with a join that displaces a lane in
progress, FULL; three filled without, NO-SPARE; fewer, DEGRADED (R91, R100). -/
def gstOf (s : State) : GState :=
  match seated s with
  | [_, _, _] =>
    if s.grp.join.isSome then .full
    else match s.grp.spare with
      | some l => if mayJoin s l then .full else .noSpare
      | none => .noSpare
  | _ => .degraded

/-- The group state brought up to date outside FORMING and SAFE. -/
def refreshGst (s : State) (cause : Nat) : State :=
  if s.grp.gst = .forming || s.grp.gst = .safe then s else setGst s (gstOf s) cause

/-- A join starts at step 1 (R84): a split spare unsplits, its window ended (R40, R59); a paired one goes on to the quick
test. `at_` is the moment in
µs after the latest boundary where the command that starts the join fixes it. -/
def joinStart (s : State) (kind : JoinKind) (joiner : LaneId) (leaver : Option LaneId) (tag : Option (HubId × Word))
    (at_ : Option Nat := none) : State :=
  let L := lane s joiner
  let j : Join :=
    { kind := kind, step := if L.st == .spareSplit then 2 else 3, joiner := joiner, leaver := leaver,
      start := s.grp.groupTime.toNat, startUs := at_.getD (freeMoment s), startRd := s.grp.round,
      tag := tag, fenceCyc := some (vitalCycle s) }
  let rot := kind == .rotation
  let s1 := modGrp (useFree s) fun g =>
    { g with join := some j, spare := none, rotDeferred := g.rotDeferred && !rot, rotD06 := g.rotD06 && !rot }
  let s2 := modLane s1 joiner fun L =>
    if L.st == .spareSplit then { splitWindow L with unsplit := true } else { L with st := .joining }
  refreshOp s2

/-- A fault join starts when the group is DEGRADED, none is in progress, no lane is halted and the spare may join
(R82, R93). -/
def tryFaultJoin (s : State) (at_ : Option Nat := none) : State :=
  if s.grp.gst = .degraded && s.grp.join.isNone && !anyHalted s then
    match s.grp.spare with
    | some l => if mayJoin s l then joinStart s .fault l none none at_ else s
    | none => s
  else s

/-- The lowest lane without a role that may hold one (R103, R533). -/
def waitingLane (s : State) : Option LaneId :=
  allLanes.find? fun l => !isSeated s l && s.grp.spare != some l && (s.grp.join.elim true fun j => j.joiner != l) &&
    mayJoin s l && !(lane s l).dbg.halted

/-- A waiting lane takes the spare role when it is free and no fault join runs (R103, R533). -/
def fillSpare (s : State) : State :=
  if s.grp.gst = .forming || s.grp.gst = .safe || s.grp.spare.isSome then s
  else if (s.grp.join.elim false fun j => j.kind == .fault) then s
  else match waitingLane s with
    | none => s
    | some l =>
      if s.grp.join.isSome then s
      else
        let s1 := modLanes (modGrp s fun g => { g with spare := some l }) allLanes fun _ L =>
          { L with nv := { L.nv with spareRec := some l } }
        modLane s1 l fun L => { L with st := .sparePaired, spareSince := s1.grp.groupTime.toNat, fenced := false }

/-- Spare role, group state and fault join brought up to date after a change. -/
def settle (s : State) (cause : Nat) (at_ : Option Nat := none) : State :=
  tryFaultJoin (refreshGst (fillSpare s) cause) at_

/-! ## Fences (R45, R80, R81, R91, R103) -/

/-- The arguments of a FENCE record (R531). -/
def fenceArgs (cause seat ctx : Nat) (cyc : DWord) (stn : Nat) : List Byte :=
  leBytes 1 cause ++ leBytes 1 seat ++ leBytes 1 ctx ++ [0] ++ leBytes 8 cyc.toNat ++ leBytes 2 stn

/-- A lane that fences itself (R45, R46, R390): what waits to leave is discarded, its gates are released, its words to
the hubs stop, its scans end, and the full self-test runs. Split tasks that had saved themselves wait for the next split
mode (R60); those that had not are lost with the fence. -/
def fenceLane (L : Lane) (cause : Nat) : Lane :=
  let L1 := abortScans L
  { L1 with
    fenced := true, gatesOn := false, gates := ⟨none, none⟩, hubWords := false, outBuf := [], dq := [], winOps := 0,
    sigM := 0, sigK := 0, fenceCause := cause, cur := none, susp := [], wait := none, kCur := none, kHalted := false, unsplit := false, splitPend := false,
    split := L1.split.filter fun t => t.status == .saved, prove := false, proveSoon := false, st := .selfTest, dbg := { L1.dbg with halted := false, stepArm := false },
    selfTest := { running := true, fenced := true, cmd := cause == 5, tags := L1.selfTest.tags },
    own := [], contribs := [], resend := [], scrub := {}, power := .active }

/-- A seated lane has fenced in the cycle of the longest vital context in progress (R49, R103). -/
def fencedInCycle (s : State) (l : LaneId) : Bool := s.grp.fenceLog.any fun x => x.1 == l && x.2 == vitalCycle s

/-- Another lane fenced in the same cycle of the longest vital context (R103). -/
def otherFencedNow (s : State) (l : LaneId) : Bool :=
  s.grp.fenceLog.any fun x => x.1 != l && x.2 == vitalCycle s

/-- A join that a fence of a seated lane turns into a fault join for the vacant seat, or takes back to step 5
(R103); a rotation is abandoned and falls due again 24 h later, under D-06 when the fence falls in the cycle of its
start. `at_` is the moment of the fence. -/
def joinAfterFence (s : State) (l : LaneId) (at_ : Nat) : State :=
  match s.grp.join with
  | none => s
  | some j =>
    if j.kind = .fault then s
    else
      let wasRot := j.kind == .rotation
      let sameCyc := wasRot && j.fenceCyc == some (vitalCycle s)
      let wasSrc := j.srcLo == some l || j.srcHi == some l
      let step := if sameCyc then min j.step 3 else if 5 ≤ j.step && j.step ≤ 7 && wasSrc then 5 else j.step
      let j1 := { j with kind := .fault, leaver := none, start := s.grp.groupTime.toNat,
                         startUs := at_, startRd := s.grp.round, step := step, tag := none,
                         unsent := if step ≤ 5 then [] else j.unsent, staged := if step ≤ 5 then [] else j.staged }
      let s0 := modGrp s fun g =>
        { g with join := some j1, rotD06 := g.rotD06 || sameCyc,
                 rotRetry := if wasRot then some (g.groupTime.toNat + ticks24h) else g.rotRetry }
      let s1 := if step ≤ 5 then (j.srcLo.toList ++ j.srcHi.toList).foldl resumeStore s0 else s0
      match j.tag with
      | none => s1
      | some (h, tag) => outcome s1 h tag stNotPermitted (leBytes 8 (groupWordOf s1).toNat)

/-- The joiner's part of a failed join (R91, R92): it fences and tests itself; the failure is counted; a rotation falls
due again 24 h later. The group keeps the state its seats give. -/
def joinFailed (s : State) (cause : Nat) : State :=
  match s.grp.join with
  | none => s
  | some j =>
    let l := j.joiner
    let seat := 0
    let s1 := modLane s l fun L =>
      let L1 := { fenceLane L cause with fencedAt := s.grp.round }
      { L1 with selfTest := { L1.selfTest with joiner := true } }
    let s2 := diag s1 l 3 (fenceArgs cause seat 0 (vitalCycle s1) 0xFFFF)
    let s3 := laneEvent s2 l 1 cause
    let s4 := modGrp s3 fun g =>
      { g with join := none, joinFails := min 255 (g.joinFails + 1),
               rotRetry := if j.kind == .rotation then some (g.groupTime.toNat + ticks24h) else g.rotRetry,
               transit := (sendMsg g (.fence l)).transit }
    let s4 := (j.srcLo.toList ++ j.srcHi.toList).foldl resumeStore s4
    let s5 := joinEndRecord (useFree s4) j 1 cause (freeMoment s4)
    let s6 := match j.tag with
      | none => s5
      | some (h, tag) => outcome s5 h tag stNotPermitted (leBytes 8 (groupWordOf s5).toNat)
    let s7 := if j.kind = .fault then grpEvent s6 4 else s6
    refreshOp (settle s7 4)

/-- The seat map in the replicated executive state of every lane that is not fenced brought up to date (R70). -/
def shareMap (s : State) : State :=
  modLanes s (allLanes.filter fun l => !(lane s l).fenced) fun _ L => { L with map := s.grp.seats }

/-- A lane fences with a cause (R45, R49, R80, R81, R91, R103). `ctx`, `cyc` and `stn` go into its FENCE record. A lane
that is fenced already, in self-test or retired does not fence again; an outvote in the cycle of its own mismatch makes
the cause 6 (R49), a mismatch in the round of a time-base fence 1, a time-base divergence in the round of an outvote 4
(R220). -/
def fence (s : State) (l : LaneId) (cause ctx : Nat) (cyc : DWord) (stn : Nat) : State :=
  let L := lane s l
  if L.nv.retire ≠ 0 then s
  else if L.fenced then
    if L.fenceCause = 1 && cause = 2 && fencedInCycle s l then
      modLane s l fun L => { L with fenceCause := 6 }
    else if L.fencedAt = s.grp.round && ((L.fenceCause = 2 && cause = 4) || (L.fenceCause = 4 && cause = 1)) then
      modLane s l fun L => { L with fenceCause := cause }
    else s
  else if (s.grp.join.elim false fun j => j.joiner == l) then joinFailed s cause
  else
    let seat := seatNumOf s.grp.seats l
    let was := s.grp.seats
    let s1 := modLane s l fun L => { fenceLane L cause with fencedAt := s.grp.round, prefSeat := if seat ≠ 0 then seat else L.prefSeat }
    let s2 := diag s1 l 3 (fenceArgs cause seat ctx cyc stn)
    let s3 := laneEvent s2 l 1 cause
    let s4 := modGrp s3 fun g => { sendMsg g (.fence l) with holdoff := g.holdoff.filter (· != l) }
    match seatOf was l with
    | none =>
      let s5 := modGrp s4 fun g =>
        { g with spare := if g.spare = some l then none else g.spare, before := tblDel g.before (laneNum l) }
      settle s5 2
    | some st =>
      let two := otherFencedNow s l
      let wasDegraded := s.grp.gst = .degraded
      let at_ := freeMoment s4
      let safe := s.grp.gst = .safe
      let s5 := voidTests <| shareMap <| modGrp (useFree s4) fun g =>
        { g with seats := setSeat g.seats st none, fences := if safe then g.fences else min 255 (g.fences + 1),
                 vacant := some l, gapFrom := some (g.groupTime.toNat, at_), before := tblSet g.before (laneNum l) was, standIn := tblDel g.standIn (laneNum l),
                 fenceLog := (g.fenceLog.filter fun x => x.2 == vitalCycle s) ++ [(l, vitalCycle s)] }
      if s.grp.gst = .forming || s.grp.gst = .safe then s5
      else if two then enterSafe s5 3
      else if wasDegraded then enterSafe s5 1
      else
        let s6 := setGst (joinAfterFence s5 l at_) .degraded 2
        refreshOp (settle s6 2 (some at_))

/-! ## Retirement (R48, R64) -/

/-- The commanded tests that wait for a lane's verdict (R99, R575). -/
def answerTests (s : State) (l : LaneId) (tags : List (HubId × Word)) (verdict : Nat) : State :=
  tags.foldl (fun s x => outcome s x.1 x.2 stOk (leBytes 1 (laneNum l) ++ leBytes 1 verdict)) s

/-- A lane retires for good (R48). A seated lane leaves its seat as at a fence; a joiner's join fails; a self-test still running
is cut short, and its outcome says ABORTED (R46, R575; DEDUCED, log 149). -/
def retire (s : State) (l : LaneId) (cause : Nat) : State :=
  let L := lane s l
  if L.nv.retire ≠ 0 then s
  else
    let s00 := if L.selfTest.running then answerTests s l L.selfTest.tags 6 else s
    let s0 :=
      if isSeated s l then fence s00 l L.fenceCause 0 (vitalCycle s) 0xFFFF
      else if s.grp.join.any fun j => j.joiner == l then joinFailed s00 7
      else s00
    let s1 := modLane s0 l fun L =>
      let L1 := fenceLane L L.fenceCause
      { L1 with st := .retired, selfTest := {}, fenced := true, nv := { L1.nv with retire := cause, mismatches := L1.mismatch, verdict := L1.verdict } }
    let s2 := modGrp s1 fun g =>
      { g with spare := if g.spare = some l then none else g.spare, holdoff := g.holdoff.filter (· != l),
               revertDue := if g.revertDue = some l then none else g.revertDue }
    settle (laneEvent s2 l 3 cause) 3

/-! ## Verdicts (R46, R47, R93, R94) -/

/-- Verdict codes (R46). -/
def vTransient : Nat := 1

/-- A lane whose test returned TRANSIENT after a fence (R79, R91, R93, R94): it counts against the revert limit, at its
next return or, after a failed join, at once; it waits for the spare role, and the hold-off of its revert starts when it
held a seat. The lanes that accused it prove their comparators at the next cycle boundary. -/
def afterTransient (s : State) (l : LaneId) (commanded failedJoin : Bool) : State :=
  let L := lane s l
  let hadSeat := (tblGet s.grp.before (laneNum l)).isSome
  let accusers := (s.grp.accuseLog.filter fun x =>
    (tblGet s.grp.before (laneNum l)).elim false fun m => seatLane m x.2.1 == some l).map (·.1)
  let now := s.grp.groupTime.toNat
  let s0 := modGrp (modLanes s (accusers.filter fun a => isSeated s a) fun _ L => { L with proveSoon := true }) fun g =>
    { g with accuseLog := g.accuseLog.filter fun x => !(accusers.contains x.1) }
  if !commanded && 3 ≤ reverts24 s L then retire s0 l 2
  else
    let s1 := modLane s0 l fun L =>
      { L with fenced := false, st := .boot, returning := !commanded && !failedJoin,
               reverts := if failedJoin && !commanded then L.reverts ++ [now] else L.reverts }
    let s2 := modGrp s1 fun g => { g with holdoff := if hadSeat then g.holdoff ++ [l] else g.holdoff }
    settle s2 3

/-- The lane runs the full self-test (R46, R99). -/
def startSelfTest (L : Lane) (cmd fenced : Bool) (tags : List (HubId × Word)) : Lane :=
  { L with st := .selfTest, selfTest := { running := true, fenced := fenced, cmd := cmd, tags := tags },
           cur := none, susp := [], kCur := none }

/-- The verdict of a full self-test taken (R46): the record, the event, the outcomes, and what the lane becomes. A lane
with an ABORTED test takes no role; at a start the test reruns once at once (R46, R533). A TRANSIENT verdict after an
uncommanded fence retires a lane that has used up its reverts, in whatever state the group is (R94). -/
def takeVerdict (s : State) (l : LaneId) (verdict block ms : Nat) : State :=
  let L := lane s l
  let run := L.selfTest
  let uncommanded := run.fenced && !run.cmd
  let s1 := modLane s l fun L =>
    { L with verdict := verdict, st := if L.st == .selfTest then .boot else L.st,
             selfTest := if verdict = 6 then { fenced := run.fenced, cmd := run.cmd, joiner := run.joiner } else {},
             nv := { L.nv with verdict := verdict } }
  let s2 := diag s1 l 4 ([0] ++ leBytes 1 verdict ++ leBytes 2 block ++ leBytes 4 ms)
  let s3 := answerTests (laneEvent s2 l 2 verdict) l run.tags verdict
  if verdict = 1 then
    if s.grp.gst = .forming || s.grp.gst = .safe then
      if uncommanded && 3 ≤ reverts24 s L then retire s3 l 2 else modLane s3 l fun L => { L with fenced := false }
    else afterTransient s3 l (!uncommanded) run.joiner
  else if verdict = 6 then
    if s.mod.op = .startUp && s.grp.gst = .forming && !run.again then
      modLane s3 l fun L =>
        let L1 := startSelfTest L run.cmd run.fenced []
        { L1 with selfTest := { L1.selfTest with again := true, joiner := run.joiner } }
    else s3
  else retire s3 l 1

/-- A full self-test in progress is cut short by a power warning or a supply fence: its verdict is ABORTED (R46, R49). -/
def abortTest (s : State) (l : LaneId) : State := if (lane s l).selfTest.running then takeVerdict s l 6 0 0 else s

end Sys2Proof.Machine
end

