-- ==== Sys2Proof/Machine/Window.lean ====
section
/-! DEFINITION. Signature windows (R37-R45, R49, R61, R463), and the commit of an instruction with the window it may end
(R40, R41). -/

namespace Sys2Proof.Machine

open Sys2Proof

/-- Both signatures are compared (R40); `kFault` disturbs K's, and the comparator must have seen the injected value
(R43). -/
def windowEqual (L : Lane) (kFault : DWord) (seen : Bool) : Bool := (L.sigM == L.sigK ^^^ kFault) && seen

/-- The context and cycle a FENCE record of a mismatch names: those of the task M runs. -/
def curCtxCyc (L : Lane) : Nat × DWord := L.cur.elim (0, 0) fun t => (t.ctx, t.cyc)

/-- The end of a lane's window (R37, R40, R41, R45, R49): K drains; equal signatures let the stores leave; unequal, the
lane discards them and fences for a pair mismatch. A lane already fenced, in self-test or retired has no window that
could mismatch, but for a mismatch in the round of a time-base fence, which has cause 1 (R220), and one in the cycle of an
outvote, which has cause 6 (R49). -/
def closeWindow (l : LaneId) (kFault : DWord) (seen : Bool) (s : State) : State :=
  let L := lane s l
  if L.fenced && L.fenceCause == 4 && L.fencedAt == s.grp.round && L.nv.retire == 0 && !windowEqual (resetWindow L) kFault seen then
    fence (setLane s l { L with mismatch := min 255 (L.mismatch + 1) }) l 1 0 0 0xFFFF
  else if L.fenced && L.fenceCause == 2 && fencedInCycle s l && L.nv.retire == 0 && !windowEqual (resetWindow L) kFault seen then
    setLane s l { L with mismatch := min 255 (L.mismatch + 1), fenceCause := 6 }
  else if L.nv.retire ≠ 0 || L.fenced || L.selfTest.running then s
  else if L.st = .spareSplit then setLane s l (splitWindow L)
  else
    let L2 := countClose (kRun L 0 L.dq)
    if windowEqual L2 kFault seen then setLane s l (resetWindow (flushStores L2))
    else
      let (c, y) := curCtxCyc L
      fence (setLane s l { resetWindow { L2 with outBuf := [] } with
        mismatch := min 255 (L2.mismatch + 1) }) l 1 c y 0xFFFF

/-- A window that ends early at a point of R40, with no fault in it. -/
def endWindow (l : LaneId) (s : State) : State := closeWindow l 0 true s

/-- A window ends after 4,096 committed operations (R40). -/
def windowFull (l : LaneId) (s : State) : State := if 4096 ≤ (lane s l).winOps then endWindow l s else s

/-- Words leave a lane (R39, R41): both cores sign them, the window that holds them ends, and they leave only if it
compared equal, that is, if the lane is not fenced after it. -/
def signWords (l : LaneId) (items : List (Nat × DWord)) (s : State) : State :=
  endWindow l (modLane s l fun L => execSigned L items)

/-- The words of a message over the straits (R16, R39). A contribution lists its own (R72); a fence message is that of a lane
whose window has mismatched, and holds none. -/
def msgWords : StraitMsg → List Word
  | .accuse _ named timeBase => [BitVec.ofNat 32 (seatNum named + 4 * timeBase.toNat)]
  | .announce l => [BitVec.ofNat 32 (laneNum l)]
  | .resend _ st n cyc => [BitVec.ofNat 32 (seatNum st), BitVec.ofNat 32 n, cyc.setWidth 32, cyc.extractLsb' 32 32]
  | .interval _ ns => [BitVec.ofNat 32 ns]
  | .mark _ => [0]
  | .scrub _ v => [v.setWidth 32, v.extractLsb' 32 32]
  | .newHat _ v => [v.setWidth 32, v.extractLsb' 32 32]
  | .contribution _ _ => []
  | .fence _ => []

/-- A lane whose two cores run and compare. -/
def pairRuns (L : Lane) : Bool := !L.fenced && L.nv.retire == 0 && !L.selfTest.running

/-- A lane gives words to another one, to a hub or to a tile: signed by both cores, they leave only if the window that holds
them has compared equal (R39-R41); `send` is what they do then. -/
def sendOut (l : LaneId) (items : List (Nat × DWord)) (send : State → State) (s : State) : State :=
  if pairRuns (lane s l) then
    let s1 := signWords l items s
    if (lane s1 l).fenced then s1 else send s1
  else send s

/-- A lane sends a message over the straits; its window ends before the send barrier (R16, R39-R41). -/
def say (l : LaneId) (m : StraitMsg) (s : State) : State :=
  sendOut l ((msgWords m).map (outItem 8)) (fun s => modGrp s fun g => sendMsg g m) s

/-! ## One instruction -/

/-- A lane's M executes one instruction word with a given effect. -/
def fbRunWord (s : State) (l : LaneId) (w : Word) (f : Lane → Task → FbRes) : State :=
  match fbTask? s l with
  | none => s
  | some t =>
    match f (lane s l) t with
    | .fault c r => ctxFault s l t c r w
    | .done d => windowFull l (commitOrWait s l t d)

/-- A lane's M executes one instruction. -/
def fbRun (s : State) (l : LaneId) (i : Instr) (f : Lane → Task → FbRes) : State :=
  fbRunWord s l ((encodeFb i).getD 0) f

/-- An effect that writes rd and goes on at the next word. -/
def fbSet (t : Task) (rd : Reg) (v : Word) (weight : Nat) (evs : List CtrEv := []) (ins : List DWord := []) : FbRes :=
  .done { task := some { setX t rd v with pc := t.pc + 4 }, weight := weight, evs := evs, ins := ins }

end Sys2Proof.Machine
end

