-- ==== Sys2Proof/Machine/Life.lean ====
section
/-! DEFINITION. Wear, spare capacity, power states and periodic telemetry (R492-R509, R515). -/

namespace Sys2Proof.Machine

open Sys2Proof

/-! ## Records (R502-R505) -/

/-- A LANE_NOTE record (R503): the note and its argument bytes from byte 4. -/
def laneNote (s : State) (l : LaneId) (note : Nat) (args : List Byte) : State :=
  tlm s (laneNum l) 3 (leBytes 2 note ++ [0, 0] ++ sliceBytes args 0 44) true

/-- A forecast field: 0xFFFF with fewer than 30 days of data (R505). -/
def yearsField (days : List Nat) (app : Bool) : Nat :=
  if days.length < 30 then 0xFFFF else min 0xFFFF (Config.wearYears days app)

/-- The WEAR body of a lane (R504). -/
def wearBody (L : Lane) (day hours erase : Nat) : List Byte :=
  let d := L.nv.paceDays
  leBytes 2 day ++ leBytes 2 (d.head?.getD day) ++ leBytes 2 (Config.wearEol d) ++ leBytes 2 (yearsField d false) ++
    leBytes 2 (yearsField d true) ++ leBytes 4 hours ++ leBytes 1 L.nv.remap.length ++ leBytes 1 L.nv.flagged.length ++
    leBytes 2 L.nv.spareUsed ++ leBytes 4 erase ++ List.replicate 26 0

/-- A WEAR record with the lane's latest figures, written at each spare brought in (R501). -/
def wearNow (s : State) (l : LaneId) : State :=
  let L := lane s l
  tlm s (laneNum l) 4 (wearBody L (L.nv.paceDays.getLast?.getD 0) L.nv.hours L.nv.eraseMax) true

/-! ## Background work (R22) -/

/-- No foreground work of a lane is runnable (R22). -/
def bgIdle (L : Lane) : Bool := L.cur.isNone && L.susp.isEmpty && L.wait.isNone

/-- Where a lane notes the latest calibration of a tile. -/
def calKey (t : TileId) : Nat := 10 + tileNum t

/-- The daily flash image hash of lane n is due, its last one given: each lane has its own quarter of the day, in which the first
hash comes too (R508; log 158). -/
def hashDue (n : Nat) (last : Option Nat) (now : Nat) : Bool :=
  let slot (t : Nat) : Nat := (t + ticks24h - ticks24h / 4 * n) / ticks24h
  match last with
  | none => now / (ticks24h / 4) % 4 == n
  | some t => slot t < slot now

/-- A background activity of a lane, by its place in the table of R499 from 0, is due: temperature compensation, the lane side
of the threshold calibration of each tile, memory scrubbing, comparator proving, the flash image hash, and the blocks of an
update that wait (R78, R199, R319, R385, R471, R508). Wear management comes with each flash write, and rotation by its own
conditions (R97); neither waits as due. -/
def bgDue (s : State) (l : LaneId) (k : Nat) : Bool :=
  let now := s.grp.groupTime.toNat
  let since (n : Nat) : Bool := tblGetD (lane s l).bgDone k 0 + n ≤ now
  match k with
  | 0 => since 10000
  | 1 => [TileId.t0, .t1].any fun t => (tile s t).fieldUp &&
      tblGetD (lane s l).bgDone (calKey t) 0 + 100000 ≤ now
  | 2 => isSeated s l && (s.grp.gst == .full || s.grp.gst == .noSpare || s.grp.gst == .degraded) &&
      s.grp.firstBoundary && !s.grp.scrub.active && s.grp.scrub.nextAt ≤ now &&
      !(s.grp.join.any fun j => j.step == 5 || j.step == 6)
  | 3 => (lane s l).prove
  | 4 => hashDue (laneNum l) (tblGet (lane s l).bgDone 4) now
  | 7 => (lane s l).journal && !(lane s l).nv.staged.isEmpty
  | _ => false

/-- A lane may turn to a background activity: no foreground work is runnable, and none above it in the table is due (R22). -/
def bgTurn (s : State) (l : LaneId) (k : Nat) : Bool :=
  bgIdle (lane s l) && (List.range k).all fun j => !bgDue s l j

/-- A lane may turn to telemetry, the last row of the table: an update goes block by block, and telemetry comes between its
blocks (R22, R499; log 127). -/
def tlmTurn (s : State) (l : LaneId) : Bool := bgTurn s l 5

/-- A background activity is done. -/
def bgMark (k now : Nat) (L : Lane) : Lane := { L with bgDone := tblSet L.bgDone k now }

/-! ## SRAM banks (R387, R388, R509, R515) -/

/-- Ticks in 30 days. -/
def ticks30d : Nat := 30 * ticks24h

/-- A finding of a bank: a second one within 30 days flags it (R509). -/
def sramFinding (s : State) (l : LaneId) (bank : Nat) : State :=
  let L := lane s l
  let now := s.grp.groupTime.toNat
  let live := L.nv.findings.filter fun f => now < f.2 + ticks30d
  if live.any (fun f => f.1 == bank) then
    if L.nv.flagged.contains bank then s
    else
      let s1 := setLane s l { L with nv := { L.nv with findings := live.filter (fun f => f.1 != bank),
                                                         flagged := L.nv.flagged ++ [bank] } }
      laneNote s1 l 6 (leBytes 1 bank)
  else setLane s l { L with nv := { L.nv with findings := live ++ [(bank, now)] } }

/-- The lowest free repair bank of a lane. -/
def freeRepair (L : Lane) : Nat := ((List.range 16).find? fun k => !(L.nv.remap.any fun e => e.2 == k)).getD 16

/-- A seated lane with a working strait to l (R509). -/
def copyLane (s : State) (l : LaneId) : Option LaneId :=
  (seated s).find? fun k => k != l && !straitFailed s.grp l k

/-- The result of one bank's march test (R509): passed, the flag is cleared; failed, the bank is remapped and code or
system content copied from a seated lane, or awaited; with no repair bank left the lane retires. -/
def marchOne (s : State) (l : LaneId) (bank : Nat) (pass : Bool) : State :=
  let L := lane s l
  if !L.nv.flagged.contains bank then s
  else if pass then
    laneNote (setLane s l { L with nv := { L.nv with flagged := L.nv.flagged.filter (· != bank) } }) l 7 (leBytes 1 bank)
  else if freeRepair L = 16 then retire s l 3
  else
    let k := freeRepair L
    let nv := { L.nv with flagged := L.nv.flagged.filter (· != bank), remap := tblSet L.nv.remap bank k }
    let lo := 0x10000 * bank
    let needs := bank < 32 || (104 ≤ bank && bank < 112)
    let L1 :=
      if needs then
        match copyLane s l with
        | some k => { L with nv := nv, mem := memCopy L.mem (lane s k).mem lo (lo + 0x10000) }
        | none => { L with nv := nv, awaitCopy := true, barred := true }
      else { L with nv := nv }
    wearNow (laneNote (setLane s l L1) l 8 (leBytes 1 bank ++ leBytes 1 k)) l

/-- The results of a lane's march tests (R50, R509). -/
def marchAll (s : State) (l : LaneId) (res : List (Nat × Bool)) : State :=
  res.foldl (fun s x => marchOne s l x.1 x.2) s

/-- A copy of remapped code or system content that had to wait is made once a seated lane is reachable (R515). -/
def resumeBankCopy (s : State) (l : LaneId) : State :=
  let L := lane s l
  if !L.awaitCopy then s
  else match copyLane s l with
    | none => s
    | some k =>
      let mem := (L.nv.remap.filter fun e => e.1 < 32 || (104 ≤ e.1 && e.1 < 112)).foldl
        (fun m e => memCopy m (lane s k).mem (0x10000 * e.1) (0x10000 * e.1 + 0x10000)) L.mem
      settle (setLane s l { L with mem := mem, awaitCopy := false, barred := false }) 3

/-! ## Flash (R507, R508) -/

/-- The cause number of a retired flash block in LANE_NOTE 9 (log 25). -/
def flashWhy : FlashFault → Nat
  | .erase => 1
  | .program => 2
  | .wear => 3

/-- A flash block is retired and remapped to a spare; with no spare left the lane retires (R507). -/
def flashFail (l : LaneId) (block : Nat) (why : FlashFault) (s : State) : State :=
  let L := lane s l
  if L.nv.retire ≠ 0 || 512 ≤ block then s
  else if 96 ≤ L.nv.spareUsed then retire s l 4
  else
    let L1 := { L with nv := { L.nv with repairs := tblSet L.nv.repairs block (416 + L.nv.spareUsed),
                                         spareUsed := L.nv.spareUsed + 1 } }
    wearNow (laneNote (setLane s l L1) l 9 (leBytes 2 block ++ leBytes 1 (flashWhy why))) l

/-- A bank agrees with its recorded hash; a bank without recorded content is not checked (R466, R508). -/
def bankHashOk (b : Bank) : Bool :=
  match b.hash with
  | none => true
  | some h => sha256Num (memBytes b.data 0 b.len) == h

/-- The cells of 64 KiB block k of a bank. -/
def blockCells (b : Bank) (k : Nat) : Mem := memRange b.data (0x10000 * k) (0x10000 * k + 0x10000)

/-- The CRC-64 of a 64 KiB block, with ADDRESS fold (R508). -/
def blockCrc (b : Bank) (k : Nat) : DWord :=
  crc64Fold 0 (BitVec.ofNat 32 (0x10000 * k)) 0 (memBytes b.data (0x10000 * k) 0x10000)

/-- Two lanes' blocks agree by their CRC-64. -/
def blockAgrees (x y : Bank) (k : Nat) : Bool := blockCells x k == blockCells y k || blockCrc x k == blockCrc y k

/-- Bank A or B of a lane. -/
def bankOf (nv : LaneNv) (b : Bool) : Bank := if b then nv.bankB else nv.bankA

/-- A lane's flash with a bank replaced. -/
def setBank (nv : LaneNv) (b : Bool) (x : Bank) : LaneNv := if b then { nv with bankB := x } else { nv with bankA := x }

/-- The repair of one bank block by block against other seated lanes (R508): the bank after it, the blocks rewritten, and
whether some block had no two lanes in agreement. -/
def repairBank (mine : Bank) (others : List Bank) : List Nat → Bank × Nat × Bool
  | [] => (mine, 0, false)
  | k :: ks =>
    let (b, n, bad) := repairBank mine others ks
    if others.any fun o => blockAgrees mine o k then (b, n, bad)
    else match others.find? fun o => (others.filter fun p => blockAgrees o p k).length ≥ 2 with
      | some o =>
        ({ b with data := memCopy b.data o.data (0x10000 * k) (0x10000 * k + 0x10000) }, n + 1, bad)
      | none => (b, n, true)

/-- A lane's bank in the part that bank b plays in another lane: active or inactive. -/
def sameBank (mine nv : LaneNv) (b : Bool) : Bank := bankOf nv (if b = activeIsB mine then activeIsB nv else !activeIsB nv)

/-- The daily hash of one bank (R508): blocks on which no two lanes agree stay as they are, the others are repaired
(DEDUCED, log 129). -/
def hashBank (s : State) (l : LaneId) (b : Bool) : State :=
  let L := lane s l
  let x := bankOf L.nv b
  if bankHashOk x then s
  else
    let others := ((seated s).filter (· != l)).map fun k => sameBank L.nv (lane s k).nv b
    let (y, n, bad) := repairBank x others (List.range 192)
    let s1 := setLane s l { L with nv := setBank L.nv b y }
    let s2 := laneNote s1 l 10 (leBytes 1 b.toNat ++ leBytes 2 n)
    if bad then laneEvent s2 l 5 b.toNat else s2

/-- FLASH_IMAGE_HASH (R508): the active bank, then the inactive bank, as background work (R22). -/
def flashHash (l : LaneId) (s : State) : State :=
  let L := lane s l
  if L.nv.retire ≠ 0 || !bgTurn s l 4 then s
  else
    let b := activeIsB L.nv
    modLane (hashBank (hashBank s l b) l (!b)) l (bgMark 4 s.grp.groupTime.toNat)

/-- FLASH_IMAGE_HASH: the daily hash of a lane's banks (R508). -/
def execFlashImageHash (l : LaneId) (s : State) : Host.Outcome State Fault Refusal := .next (whenOn s (flashHash l))

/-- FLASH_BLOCK_FAILURE: a block is retired and remapped (R507). -/
def execFlashBlockFailure (l : LaneId) (block : Nat) (why : FlashFault) (s : State) :
    Host.Outcome State Fault Refusal := .next (whenOn s (flashFail l block why))

/-! ## Power states (R492-R498) -/

/-- A lane waits for a copy of stored content from a seat (R472, R508, R509, R515). -/
def wantsCopy (L : Lane) : Bool := L.nv.retire == 0 && L.loaded && (L.awaitCopy || !L.imgOk || !L.verified || L.upd.missed)

/-- A bank copy to or from a lane is in progress: the first seated lane over a working strait sends it (R472, R493). -/
def bankCopying (s : State) (l : LaneId) : Bool :=
  (wantsCopy (lane s l) && (copyLane s l).isSome) ||
    (otherLanes l).any fun k => wantsCopy (lane s k) && copyLane s k == some l

/-- A lane has nothing to run and may leave ACTIVE (R493), once its window has ended: no scan, join copy, scrub repair, bank copy,
split hand-over or flash write is in progress. -/
def mayRest (s : State) (l : LaneId) : Bool :=
  let L := lane s l
  !bankCopying s l && !(L.journal && !L.nv.staged.isEmpty) && L.cur.isNone && L.susp.isEmpty &&
    L.valuz.toList.all (fun c => c.st != .busy) && L.wait.isNone && L.writes.isEmpty && !L.unsplit &&
    L.scrub.repair.isNone && !L.selfTest.running && !L.upd.missed &&
    !(s.grp.join.elim false fun j =>
      j.joiner == l || ((j.srcLo == some l || j.srcHi == some l) && j.step == 6)) &&
    !(L.st == .spareSplit && L.split.any fun t => t.status == .running)

/-- DOZE is not entered while the debug port is unlocked (R497). -/
def dozeOk (L : Lane) : Bool := !L.unlocked

/-- The state a lane enters for a time t_e in µs to its next known event (R492, R494): the deepest whose entry time,
wake latency and 2 µs fit; DOZE only where R495 and R497 allow it. -/
def restState (te : Nat) (doze : Bool) : PowerSt :=
  if doze && 20 + 60 + 2 ≤ te then .doze else if 2 + 8 + 2 ≤ te then .nap else .pause

/-- A lane rests for a time to its next event. The queue drains and the window ends before (R37, R40); unequal, the lane
fences instead. Whether the moment lies in a period of R495, in which DOZE is not
entered, no command says: it is a free choice (log 21). -/
def powerEntry (l : LaneId) (te : Nat) (s : State) : State :=
  let L := lane s l
  if L.nv.retire ≠ 0 then s
  else if L.dbg.halted then setLane s l { L with power := .pause }
  else if mayRest s l then
    let s1 := endWindow l s
    if (lane s1 l).fenced && !L.fenced then s1
    else useFree (modLane s1 l fun L => { L with power := restState te (dozeOk L && Config.freeBit s1.free) })
  else s

/-- POWER_STATE_ENTRY: the deepest state that fits (R494). -/
def execPowerStateEntry (l : LaneId) (te : Nat) (s : State) : Host.Outcome State Fault Refusal :=
  .next (whenOn s (powerEntry l te))

/-- LANE_WAKE: a word or a known event wakes the lane, but for a halted one (R495, R497). -/
def execLaneWake (l : LaneId) (s : State) : Host.Outcome State Fault Refusal :=
  .next (whenOn s fun s => modLane s l wake)

/-- A block of the hub is idle: the firmware core with no command in flight, a class with no item in flight (R428, R498). -/
def blockIdle (s : State) (h : HubId) : HubBlock → Bool
  | .firmware => inFlight s h == 0
  | .cls c => classItems s h c == 0

/-- HUB_CLOCK_GATE: an idle block's clock is gated, or a gated block resumes (R498). -/
def hubGate (h : HubId) (b : HubBlock) (gate : Bool) (s : State) : State :=
  if gate && !blockIdle s h b then s else modHub s h (setGate b gate)

/-- HUB_CLOCK_GATE (R498). -/
def execHubClockGate (h : HubId) (blk : HubBlock) (gate : Bool) (s : State) : Host.Outcome State Fault Refusal :=
  .next (whenOn s (hubGate h blk gate))

/-! ## Periodic records (R500-R505) -/

/-- A signed value in n bytes, little-endian. -/
def leInt (n : Nat) (v : Int) : List Byte := leBytes n (unsignedOf (8 * n) v)

/-- The LANE_PERIODIC body (R502). -/
def lanePeriodicBody (s : State) (l : LaneId) (m : LaneMeasures) (step : Nat) : List Byte :=
  let L := lane s l
  leBytes 2 L.pace ++ leBytes 2 (Config.paceNorm L.pace m.vcoreMv m.tempC) ++ leBytes 2 m.vcoreMv ++ leInt 1 m.tempC ++
    leBytes 1 (packFields [(1, L.tb.onSpare.toNat), (1, L.tb.failed0.toNat), (1, L.tb.failed1.toNat)]) ++
    leInt 4 m.rate0 ++ leInt 4 m.rate1 ++ leInt 4 L.tb.offset ++ leBytes 2 step ++ leBytes 1 m.pausePct ++
    leBytes 1 m.napPct ++ leBytes 1 m.dozePct ++ leBytes 1 m.reservePct ++ leBytes 1 (inSplit L).toNat ++ [0] ++
    leBytes 4 s.grp.scrub.pass ++ leBytes 1 s.grp.scrub.latest ++ List.replicate 15 0

/-- The next longer record interval (R500). -/
def longerStep (n : Nat) : Nat := if n < 2 then 2 else if n < 5 then 5 else 10
/-- The next shorter record interval. -/
def shorterStep (n : Nat) : Nat := if 5 < n then 5 else if 2 < n then 2 else 1

/-- LANE_PERIODIC_RECORD as background work: the record of the interval; a backlog lengthens the interval by one step (R22, R500,
R502). -/
def lanePeriodic (l : LaneId) (m : LaneMeasures) (s : State) : State :=
  let L := lane s l
  if !tlmTurn s l then s else
  let L1 := { L with temp := m.tempC, vcore := m.vcoreMv, tlmCalm := if m.backlog then 0 else L.tlmCalm + L.tlmStep }
  let s1 := tlmLatest (setLane s l L1) (laneNum l) 1 (lanePeriodicBody s l m L.tlmStep)
  if m.backlog && L.tlmStep < 10 then
    let n := longerStep L.tlmStep
    laneNote (modLane s1 l fun L => { L with tlmStep := n }) l 12 (leBytes 2 n)
  else s1

/-- LANE_PERIODIC_RECORD (R502). -/
def execLanePeriodicRecord (l : LaneId) (m : LaneMeasures) (s : State) : Host.Outcome State Fault Refusal :=
  .next (whenOn s (lanePeriodic l m))

/-- TELEMETRY_INTERVAL_RESTORE: after 60 s with no backlog the interval goes back one step (R500). -/
def intervalRestore (l : LaneId) (s : State) : State :=
  let L := lane s l
  if 60 ≤ L.tlmCalm && 1 < L.tlmStep then
    let n := shorterStep L.tlmStep
    laneNote (setLane s l { L with tlmStep := n, tlmCalm := 0 }) l 12 (leBytes 2 n)
  else s

/-- TELEMETRY_INTERVAL_RESTORE (R500). -/
def execTelemetryIntervalRestore (l : LaneId) (s : State) : Host.Outcome State Fault Refusal :=
  .next (whenOn s (intervalRestore l))

/-- WEAR_RECORD as background work: the day's figures join the history, and the record is written (R22, R504, R505). -/
def wearDay (l : LaneId) (w : WearFit) (s : State) : State :=
  if !tlmTurn s l then s else
  let s1 := modLane s l fun L =>
    { L with nv := { L.nv with paceDays := L.nv.paceDays ++ [w.paceNormDay], hours := w.hours, eraseMax := w.eraseMax } }
  tlm s1 (laneNum l) 4 (wearBody (lane s1 l) w.paceNormDay w.hours w.eraseMax) true

/-- WEAR_RECORD (R505). -/
def execWearRecord (l : LaneId) (w : WearFit) (s : State) : Host.Outcome State Fault Refusal :=
  .next (whenOn s (wearDay l w))

/-- The HUB_PERIODIC body (R504). -/
def hubPeriodicBody (H : Hub) (m : HubMeasures) : List Byte :=
  leInt 1 m.tempC ++ [0] ++ leBytes 2 m.vcoreMv ++ leBytes 1 m.gatedPct ++ leBytes 1 H.degraded.toNat ++ [0, 0] ++
    leBytes 4 m.replays ++ List.replicate 36 0

/-- HUB_PERIODIC_RECORD (R504). -/
def execHubPeriodicRecord (h : HubId) (m : HubMeasures) (s : State) : Host.Outcome State Fault Refusal :=
  .next (whenOn s fun s =>
    let s1 := modHub s h fun H => { H with replays := m.replays }
    tlmLatest s1 (4 + hubNum h) 5 (hubPeriodicBody (hub s1 h) m))

end Sys2Proof.Machine
end

