-- ==== Sys2Proof/Machine/Image.lean ====
section
/-! DEFINITION. Loading an image into a lane, the hat, and the entries of the process image (R188, R287-R291, R338, R370,
R480, R574, R576). -/

namespace Sys2Proof.Machine

open Sys2Proof

/-! ## Process image entries (R288, R289) -/

/-- The parts of an entry: value, status bits and age. -/
structure PointEnt where
  value  : BitVec 16
  proof  : Bool := false
  stale  : Bool := false
  forced : Bool := false
  subst  : Bool := false
  valid  : Bool := false
  age    : Nat := 0
  deriving DecidableEq, Repr

/-- The word of an entry (R288). -/
def entWord (e : PointEnt) : Word :=
  BitVec.ofNat 32 (packFields [(8, min 255 e.age), (1, e.valid.toNat), (1, e.subst.toNat), (1, e.forced.toNat),
    (1, e.stale.toNat), (1, e.proof.toNat), (3, 0), (16, e.value.toNat)])

/-- The parts of an entry's word. -/
def entOf (w : Word) : PointEnt :=
  { value := w.extractLsb' 16 16, proof := w.getLsbD 12, stale := w.getLsbD 11, forced := w.getLsbD 10,
    subst := w.getLsbD 9, valid := w.getLsbD 8, age := w.toNat % 256 }

/-- The Reset content of an entry (R288). -/
def resetEnt (out : Bool) (subst : BitVec 16) : PointEnt :=
  { value := subst, stale := true, forced := out, subst := !out, age := 255 }

/-- A point of the configuration: its index, owner, direction and substitute or safe value. -/
structure PointRef where
  index : Nat
  ctx   : Nat
  out   : Bool
  subst : BitVec 16
  deriving DecidableEq, Repr

/-- What a missing uplink gives a state point (R287). -/
def stateMissing : BitVec 16 := 0x01FF

/-- Every point of a configuration (R282, R338, R349, R364). -/
def cfgPoints (c : Cfg) : List PointRef :=
  (c.stations.flatMap fun x =>
    (x.points.map fun r => ({ index := r.index, ctx := x.ctx, out := r.out, subst := r.subst } : PointRef)) ++
      (x.statePoint.toList.map fun p => { index := p, ctx := x.ctx, out := false, subst := stateMissing })) ++
  (c.chans.flatMap fun x =>
    (x.p0.toList.map fun p => ({ index := p, ctx := x.ctx, out := chMode x.word == 2, subst := 0 } : PointRef)) ++
      (x.p1.toList ++ x.p2.toList).map fun p => { index := p, ctx := x.ctx, out := false, subst := 0 }) ++
  (c.fns.map fun f => { index := f.point, ctx := f.ctx, out := false, subst := 0 }) ++
  (c.drives.map fun d => { index := d.status, ctx := d.ctx, out := false, subst := 0 })

/-- The points of one context. -/
def ctxPoints (c : Cfg) (n : Nat) : List PointRef := (cfgPoints c).filter fun p => p.ctx == n

/-- The output points of one context. -/
def ctxOutputs (c : Cfg) (n : Nat) : List PointRef := (ctxPoints c n).filter fun p => p.out

/-- An entry of a memory's process image. -/
def getEnt (m : Mem) (p : Nat) : PointEnt := entOf (memWord m (pointAddr p))

/-- A memory with an entry written. -/
def putEnt (m : Mem) (p : Nat) (e : PointEnt) : Mem := memPutWord m (pointAddr p) (entWord e)

/-- A memory with an entry changed. -/
def modEnt (m : Mem) (p : Nat) (f : PointEnt → PointEnt) : Mem := putEnt m p (f (getEnt m p))

/-- The entries of some points as a memory has them, stored by the executive (R39, R41). -/
def storeEnts (ps : List Nat) (m : Mem) (L : Lane) : Lane :=
  execStores L (ps.map fun p => (pointAddr p, memWord m (pointAddr p)))

/-- Points at their Reset content (R288). -/
def resetPoints (m : Mem) (ps : List PointRef) : Mem :=
  ps.foldl (fun m p => putEnt m p.index (resetEnt p.out p.subst)) m

/-! ## Loading (R520 step 6, R574, R576) -/

/-- The memory of a lane after it has loaded a bank (R574): regions 0-111 defined, the self-test region kept. -/
def loadMem (bank old : Mem) : Mem :=
  let base := match bankSection bank 2 with
    | some (_, len) => cfgBaseOf len
    | none => 0x600000
  let m1 := memCopy (memRange old 0x700000 0x800000) (sectionCells bank 1 0) 0 0x200000
  let m2 := memCopy m1 (sectionCells bank 3 0x200000) 0x200000 (max 0x200000 base)
  let m := memCopy m2 (sectionCells bank 2 base) base 0x600000
  resetPoints m (cfgPoints (parseCfg m base))

/-- CFG_BASE of a bank (R576), from the section's LENGTH in the section table (R466), not from the block header's own LENGTH
(R194), should the two differ (DESIGN CHOICE, log 126). -/
def bankCfgBase (bank : Mem) : Nat :=
  match bankSection bank 2 with
  | some (_, len) => cfgBaseOf len
  | none => 0x600000

/-- The length of the sealed configuration block of a bank. -/
def bankCfgLen (bank : Mem) : Nat := (bankSection bank 2).elim 0 (·.2)

/-- The hat header (R370). -/
def hatHeader (major cfgLen : Nat) : List Byte :=
  beBytes 4 0x48415431 ++ beBytes 2 major ++ [0, 0] ++ beBytes 4 0x200000 ++ beBytes 4 cfgLen

/-- The hat over a loaded image (R370). -/
def hatOf (m : Mem) (base cfgLen : Nat) : DWord :=
  crc64Plain (hatHeader (memNat m 6 2) cfgLen ++ memBytes m 0 0x200000 ++ memBytes m base cfgLen)

/-- IMAGE_ID of the code region in a bank (R187). -/
def bankImageId (bank : Mem) : DWord :=
  match bankSection bank 1 with
  | some (off, _) => BitVec.ofNat 64 (memNat bank (off + 8) 8)
  | none => 0

/-- A context before the first vital cycle, in none of the states of R129: its STATE reads 0 (log 109). -/
def freshCtx : CtxRun := { fresh := true, safePub := true }

/-- The contexts of an image, none of them started; their late events since power good count on (R131). -/
def freshCtxs (c : Cfg) (old : Tbl CtxRun) : Tbl CtxRun :=
  (c.ctxs.filter fun x => x.num != 0).foldl
    (fun t x => tblSet t x.num { freshCtx with lateCount := (tblGetD old x.num {}).lateCount }) []

/-- The station views at a load: what the lane has held since power good, and of the other stations the sequences of its
journal (R298, R304). -/
def loadViews (L : Lane) : Tbl StnView :=
  L.nv.upSeq.foldl (fun t e => if (tblGet t e.1).isSome then t
    else tblSet t e.1 { lastSeq := some e.2.1 }) L.stn

/-- The rounds without a valid uplink since the journal's entry, once the round count of a start is known (R297, R298; the
difference of the round counts, DEDUCED, log 138). -/
def ageViews (r : Nat) (L : Lane) : Lane :=
  { L with stn := L.stn.map fun e => match tblGet L.nv.upSeq e.1 with
      | some q => if e.2.heard then e else (e.1, { e.2 with sinceUp := r - q.2 })
      | none => e }

/-- A lane with the image of its active bank loaded, and its hat (R375, R520 steps 6 and 7). -/
def loadImage (L : Lane) : Lane :=
  let bank := (activeBank L.nv).data
  let m := loadMem bank L.mem
  let base := bankCfgBase bank
  let c := parseCfg m base
  { L with mem := m, cfg := c, hat := hatOf m base (bankCfgLen bank), loaded := true, ctxs := freshCtxs c L.ctxs,
           fns := [], drvs := [], cur := none, susp := [],
           stn := loadViews L }

/-! ## Eligibility (R375, R523) -/

/-- The lanes whose seal record holds a hat. -/
def sealCount (s : State) (h : DWord) : Nat :=
  (allLanes.filter fun l => ((lane s l).nv.sealRec.map (·.hat)) == some h).length

/-- A hat is that of the majority of the seal records: more lanes hold it than hold any other, and at least two do
(R375, R533). -/
def sealMajority (s : State) (h : DWord) : Bool :=
  2 ≤ sealCount s h && allLanes.all fun l => match (lane s l).nv.sealRec with
    | some r => r.hat == h || sealCount s r.hat < sealCount s h
    | none => true

/-- A lane's hat passes (R523): sealed, it equals the lane's record, which agrees with the majority; unsealed, it equals
the hat of another loaded lane. -/
def hatOk (s : State) (l : LaneId) : Bool :=
  let L := lane s l
  if isSealed s then
    match L.nv.sealRec with
    | some r => r.hat == L.hat && sealMajority s r.hat
    | none => false
  else (otherLanes l).any fun k => (lane s k).loaded && (lane s k).hat == L.hat

/-- A lane's image header matches its executive, and the image may start (R188). -/
def headerOk (L : Lane) : Bool := imageStarts L.cfg L.mem (runMajor L.nv)

/-- A lane is eligible at a start (R523). -/
def eligible (s : State) (l : LaneId) : Bool :=
  let L := lane s l
  L.nv.retire == 0 && L.verdict == 1 && !L.selfTest.running && L.supplyOk && L.imgOk && L.loaded && headerOk L &&
    hatOk s l

end Sys2Proof.Machine
end

