-- ==== Sys2Proof/Machine/Pair.lean ====
section
/-! DEFINITION. The pair inside a lane: the command that closes a signature window (R40-R45), self-tests (R46-R51) and split mode (R57-R61). -/

namespace Sys2Proof.Machine

open Sys2Proof

/-! ## Signature windows (R37-R43, R463) -/

/-- SIGNATURE_WINDOW_CLOSE (R40-R45). -/
def execSignatureWindowClose (l : LaneId) (kFault : BitVec 64) (injectedSeen : Bool) (s : State) :
    Host.Outcome State Fault Refusal := .next (whenOn s (closeWindow l kFault injectedSeen))

/-! ## Split mode (R57-R61) -/

/-- What a split task, a non-vital one, may load from the counter block (R453): VALUE_LO, VALUE_HI and USER_OPEN. -/
def ctrReadable (a : Nat) : Bool :=
  (0x40005000 ≤ a && a < 0x40005200 && (a - 0x40005000) % 0x20 < 8) || (0x40005210 ≤ a && a < 0x40005214)

/-- A split task's access is inside its core's part of the SRAM, which never holds the sealed configuration block (R58,
R62, R576), or one the engine and counter blocks permit (R381, R453). -/
def splitAllowed (L : Lane) (core : Core) (a : Nat) (write : Bool) : Bool :=
  (!write && ctrReadable a) ||
  match core with
  | .m => (0x200000 ≤ a && a < min 0x400000 L.cfg.cfgBase) || (0x600000 ≤ a && a < 0x640000) ||
      (0x400030C0 ≤ a && a < 0x40003100)
  | .k => (0x400000 ≤ a && a < L.cfg.cfgBase) || (0x640000 ≤ a && a < 0x680000) || (0x40003080 ≤ a && a < 0x400030C0)

/-- A split task's status set. -/
def setTaskStatus (L : Lane) (tid : Nat) (st : SplitStatus) : Lane :=
  { L with split := L.split.map fun t => if t.tid = tid then { t with status := st } else t }

/-- A task of a lane's split work runs. -/
def splitRuns (L : Lane) (tid : Nat) : Bool := L.split.any fun t => t.tid == tid && t.status == .running

/-- Scans of channels 2 and 3 end at step 2 of the hand-over (R390). -/
def endSplitScans (L : Lane) : Lane := modLaneValuz (modLaneValuz L 2 valuzStop) 3 valuzStop

/-- The hand-over is done (R59): the lane is paired, K is reloaded with M's registers (step 4), and signatures, buffer and
queue start anew (step 5), so that K's first commit waits for M's next 32 operations (R37); a join goes on to the quick
test, and a commanded test of the spare begins with its fence (R99). -/
def handedOver (s : State) (l : LaneId) : State :=
  let L := lane s l
  let L1 := { resetWindow { endSplitScans L with outBuf := [] } with
    kCur := L.cur, kHalted := L.dbg.halted, unsplit := false, split := L.split.filter fun t => t.status == .saved, st := .sparePaired }
  if L.splitPend then
    fence (setLane s l { L1 with splitPend := false }) l 5 0 (vitalCycle s) 0xFFFF
  else match s.grp.join with
    | some j =>
      if j.joiner = l && j.step = 2 then
        let s1 := setLane s l { L1 with st := .joining }
        modGrp s1 fun g => { g with join := some { j with step := 3 } }
      else setLane s l L1
    | none => setLane s l L1

/-- The hand-over completes when no task runs any more (R59). -/
def handOverIfDone (s : State) (l : LaneId) : State :=
  if (lane s l).split.any fun t => t.status == .running then s else handedOver s l

/-- SPLIT_TASK_CHECKPOINT: a task told to stop saves itself (R59). -/
def splitCheckpoint (l : LaneId) (tid : Nat) (s : State) : State :=
  let L := lane s l
  if L.st = .spareSplit && L.unsplit && splitRuns L tid && !L.dbg.halted then
    handOverIfDone (setLane s l (setTaskStatus L tid .saved)) l
  else s

/-- SPLIT_TASK_CHECKPOINT (R59). -/
def execSplitTaskCheckpoint (l : LaneId) (task : Nat) (s : State) : Host.Outcome State Fault Refusal :=
  .next (whenOn s (splitCheckpoint l task))

/-- SPLIT_DROP_TIMEOUT: the tasks that have reached no checkpoint are dropped and reported (R59, R60). -/
def splitDrop (l : LaneId) (s : State) : State :=
  let L := lane s l
  if L.st = .spareSplit && L.unsplit && !L.dbg.halted then
    let dropped := (L.split.filter fun t => t.status == .running).map (·.tid)
    let L1 := { L with split := L.split.map fun t =>
      if t.status = .running then { t with status := .dropped } else t }
    let s1 := dropped.foldl (fun s t => laneNote s l 1 (leBytes 4 t)) (setLane s l L1)
    handedOver s1 l
  else s

/-- SPLIT_DROP_TIMEOUT (R60). -/
def execSplitDropTimeout (l : LaneId) (s : State) : Host.Outcome State Fault Refusal := .next (whenOn s (splitDrop l))

/-- The spare may split (R57): paired for 1 s as the spare, and no join, rotation or revert pending for it. -/
def maySplit (s : State) (l : LaneId) : Bool :=
  let L := lane s l
  s.grp.spare == some l && L.st == .sparePaired && s.grp.join.isNone && !s.grp.rotDeferred &&
    s.grp.revertDue != some l && !L.dbg.halted && L.spareSince + 10000 ≤ s.grp.groupTime.toNat

/-- SPLIT_ENTRY: the flagged banks are tested first (R509); the queue drains, a final window closes, and the split work
starts, saved tasks with it (R57, R60). -/
def splitEntry (l : LaneId) (march : List (Nat × Bool)) (work : List SplitTask) (s : State) : State :=
  if maySplit s l then
    let s1 := marchAll s l march
    let L := lane s1 l
    if s1.grp.spare = some l && L.nv.flagged.isEmpty then
      let s2 := endWindow l s1
      if (lane s2 l).fenced then s2
      else modLane s2 l fun L =>
        let saved := L.split.map fun t => { t with status := SplitStatus.running }
        { L with st := .spareSplit, power := .active,
                 split := saved ++ work.map fun t => { t with status := SplitStatus.running } }
    else s1
  else s

/-- SPLIT_ENTRY (R57). -/
def execSplitEntry (l : LaneId) (march : List (Nat × Bool)) (work : List SplitTask) (s : State) :
    Host.Outcome State Fault Refusal := .next (whenOn s (splitEntry l march work))

/-- SPLIT_TASK_STOP: a task whose access its core's part does not permit is stopped and reported; the others go on
(R58, R61). -/
def splitStop (l : LaneId) (tid : Nat) (addr : Word) (write : Bool) (s : State) : State :=
  let L := lane s l
  match L.split.find? fun t => t.tid == tid && t.status == .running with
  | none => s
  | some t =>
    if L.st = .spareSplit && !L.dbg.halted && !splitAllowed L t.core addr.toNat write then
      let s1 := laneNote (setLane s l (setTaskStatus L tid .stopped)) l 2 (leBytes 4 tid ++ leBytes 4 addr.toNat)
      if L.unsplit then handOverIfDone s1 l else s1
    else s

/-- SPLIT_TASK_STOP (R58). -/
def execSplitTaskStop (l : LaneId) (task : Nat) (addr : BitVec 32) (write : Bool) (s : State) :
    Host.Outcome State Fault Refusal := .next (whenOn s (splitStop l task addr write))

/-! ## Self-tests (R46-R51) -/

/-- A rate in 0.1 ppm lies within ±100 ppm (R212). -/
def rateOk (rate : Int) : Bool := rate.natAbs ≤ 1000

/-- The full self-test follows a time-base fence (R212). -/
def afterTimeFence (L : Lane) : Bool := L.selfTest.fenced && L.fenceCause == 4

/-- What the full self-test finds of both oscillators against each other (R50): neither known as failed, they agree within
100 ppm. -/
def oscPairOk (L : Lane) (r : SelfTestResult) : Bool :=
  L.tb.failed0 || L.tb.failed1 || (r.rate0 - r.rate1).natAbs ≤ 1000

/-- The verdict on a full self-test (R46, R47, R50): each core judged on its own, then everything the cores share, the
calibration records and, except after a time-base fence (R212), the oscillators against each other. -/
def verdictOf (L : Lane) (r : SelfTestResult) : Nat :=
  let m := !L.selfTest.lateM && r.m == some L.otp.expM
  let k := !L.selfTest.lateK && r.k == some L.otp.expK
  if !m && !k then 4 else if !m then 2 else if !k then 3
  else if !r.shared || !r.otpOk || (!afterTimeFence L && !oscPairOk L r) then 5 else 1

/-- What the full self-test after a time-base fence finds of the oscillators: one outside ±100 ppm of the reference marks
has failed, the lane goes on with the good one, and with both failed it takes no role (R212). A switch that was due is
settled by it. -/
def selfTestOsc (L : Lane) (r : SelfTestResult) : Lane :=
  if afterTimeFence L then
    let f0 := L.tb.failed0 || !rateOk r.rate0
    let f1 := L.tb.failed1 || !rateOk r.rate1
    { L with tb := { L.tb with failed0 := f0, failed1 := f1, rate0 := r.rate0, rate1 := r.rate1, switchDue := false,
                               onSpare := (f0 && !f1) || (L.tb.onSpare && !f1) },
             barred := L.barred || (f0 && f1) }
  else L

/-- SELF_TEST_COMPLETE: march results, oscillators, then the verdict; with both oscillators failed the lane retires
(R46, R47, R212, R509). -/
def selfTestDone (l : LaneId) (r : SelfTestResult) (s : State) : State :=
  let L := lane s l
  if L.selfTest.running then
    let v := verdictOf L r
    let s1 := modLane (marchAll s l r.march) l fun L => selfTestOsc L r
    let s2 := takeVerdict s1 l v r.block r.ms
    if (lane s2 l).tb.failed0 && (lane s2 l).tb.failed1 then retire s2 l 5 else s2
  else s

/-- SELF_TEST_COMPLETE (R46). -/
def execSelfTestComplete (l : LaneId) (res : SelfTestResult) (s : State) : Host.Outcome State Fault Refusal :=
  .next (whenOn s (selfTestDone l res))

/-- SELF_TEST_RESULT_TIMEOUT: a core whose result has not come has failed; with both late the verdict is taken (R47). -/
def selfTestLate (l : LaneId) (core : Core) (s : State) : State :=
  let L := lane s l
  if L.selfTest.running then
    let t := match core with
      | .m => { L.selfTest with lateM := true }
      | .k => { L.selfTest with lateK := true }
    let s1 := setLane s l { L with selfTest := t }
    if t.lateM && t.lateK then takeVerdict s1 l 4 0 0 else s1
  else s

/-- SELF_TEST_RESULT_TIMEOUT (R47). -/
def execSelfTestResultTimeout (l : LaneId) (core : Core) (s : State) : Host.Outcome State Fault Refusal :=
  .next (whenOn s (selfTestLate l core))

/-- QUICK_TEST_COMPLETE: passed, the joiner goes on to announce itself; failed, the join fails (R50, R84, R91). -/
def quickDone (l : LaneId) (pass : Bool) (ms : Nat) (s : State) : State :=
  match s.grp.join with
  | none => s
  | some j =>
    if j.joiner = l && j.step = 3 then
      let s1 := diag s l 4 ([1] ++ leBytes 1 (lane s l).verdict ++ leBytes 2 0 ++ leBytes 4 ms)
      if pass then say l (.announce l) (modGrp s1 fun g => { g with join := some { j with step := 4 } }) else joinFailed s1 7
    else s

/-- QUICK_TEST_COMPLETE (R50). -/
def execQuickTestComplete (l : LaneId) (pass : Bool) (ms : Nat) (s : State) : Host.Outcome State Fault Refusal :=
  .next (whenOn s (quickDone l pass ms))

end Sys2Proof.Machine
end

