-- ==== Sys2Proof/Machine/Start.lean ====
section
/-! DEFINITION. Power, supply and temperature, and the start sequence up to the round count (R13, R375, R485, R488, R511,
R514, R516-R527, R532, R541-R544, R559). -/

namespace Sys2Proof.Machine

open Sys2Proof

/-! ## Power (R520, R542-R544) -/

/-- A lane's records as its flash holds them: a closed journal has taken none of the writes deferred since (R544). -/
def durableNv (L : Lane) : LaneNv := L.flashNv.getD L.nv

/-- A lane in reset: its flash and OTP stay (R527, R544, R574); a retired lane keeps its verdict and mismatch count (R65). -/
def resetLane (L : Lane) : Lane :=
  let nv := durableNv L
  { ({} : Lane) with
    nv := nv, otp := L.otp, st := if nv.retire ≠ 0 then .retired else .boot,
    verdict := if nv.retire ≠ 0 then nv.verdict else 0,
    mismatch := if nv.retire ≠ 0 then nv.mismatches else 0 }

/-- A hub in reset: its copy in the hub flash stays, and so does a confirmed firmware that the lanes still have to give it (log
155). -/
def resetHub (H : Hub) : Hub := { ({} : Hub) with fwFlash := H.fwFlash, fwFlashOk := H.fwFlashOk, fwDue := H.fwDue }

/-- The module without power: flash contents and the levels of the input pins stay. -/
def coldState (s : State) : State :=
  { pending := s.pending, free := s.free,
    mod := { pfailN := s.mod.pfailN, benchN := s.mod.benchN },
    lanes := ⟨resetLane s.lanes.l0, resetLane s.lanes.l1, resetLane s.lanes.l2, resetLane s.lanes.l3⟩,
    hubs := ⟨resetHub s.hubs.a, resetHub s.hubs.b⟩ }

/-- The channels the journals name as LOST, and the cuffs held open for good (R311, R334, R527). -/
def journalLost (s : State) : List Nat := (allLanes.flatMap fun l => (lane s l).nv.lostCh).eraseDups

/-- The cuff groups the journals hold open for good. -/
def journalCuffs (s : State) : List Nat := (allLanes.flatMap fun l => (lane s l).nv.cuffHeld).eraseDups

/-- A tile at power good: calibration checked (R512), latches for good restored (R527). The field side measures its temperature
before its first snapshot; no command gives that first value, which is free (R341; log 140). -/
def bootTile (s : State) (t : TileId) (calOk : Bool) : Tile :=
  let base := 16 * tileNum t
  let ch : Vector Chan 16 := Vector.ofFn fun k =>
    { lost := (journalLost s).contains (base + k.val), threshold := !calOk }
  let cuff (g : Nat) : Cuff :=
    if (journalCuffs s).contains (2 * tileNum t + g) then { forGood := true, openFlt := true } else {}
  { calOk := calOk, fieldUp := true, fieldTemp := Config.fieldTemp (2 * s.free + tileNum t), chans := ch, cuffs := ⟨cuff 0, cuff 1⟩ }

/-- A lane at power good (R520 steps 2 and 3): the start is counted, the journal opened, and the full self-test runs
where the lane is not retired and its rails are in range (R542). -/
def bootLane (L : Lane) (rails : Bool) : Lane :=
  let L0 := resetLane L
  let L1 := { L0 with nv := { L0.nv with startCount := L0.nv.startCount + 1, closed := false } }
  if L0.nv.retire ≠ 0 then L1
  else if rails then startSelfTest L1 false false []
  else { L1 with supplyOk := false }

/-- STOP_CAUSE of R532: 0 before the first start, 1 with every journal closed, else 2. -/
def stopCauseOf (s : State) : Nat :=
  let ls := allLanes.filter fun l => (lane s l).nv.retire == 0
  if ls.all fun l => (lane s l).nv.startCount == 0 then 0
  else if ls.all fun l => (lane s l).nv.closed then 1 else 2

/-- POWER_GOOD while PWRGD is low (R520, R542). -/
def powerGood (benchN : Bool) (rails : Quad Bool) (cal : Duo Bool) (s : State) : State :=
  if s.mod.pwrgd then s
  else
    let c := coldState s
    let lanes : Quad Lane :=
      ⟨bootLane s.lanes.l0 rails.l0, bootLane s.lanes.l1 rails.l1, bootLane s.lanes.l2 rails.l2,
        bootLane s.lanes.l3 rails.l3⟩
    { c with
      free := c.free + 1
      mod := { c.mod with pwrgd := true, benchN := benchN, benchSample := benchN, op := .startUp,
                          stopCause := stopCauseOf s }
      lanes := lanes
      grp := { startCount := (allLanes.map fun l => (quadGet lanes l).nv.startCount).foldl max 0 }
      tiles := ⟨bootTile s .t0 cal.a, bootTile s .t1 cal.b⟩ }

/-- POWER_GOOD (R520). -/
def execPowerGood (benchN : Bool) (rails : Quad Bool) (tileCal : Duo Bool) (s : State) :
    Host.Outcome State Fault Refusal := .next (powerGood benchN rails tileCal s)

/-- The module resets (R543). -/
def powerOff (s : State) : State := coldState s

/-- POWER_LOSS: PWRGD low for a time in µs (R543): below 20 filtered, from 100 a reset, between free. -/
def powerLoss (us : Nat) (s : State) : State :=
  if us < 20 then s
  else if 100 ≤ us then powerOff s
  else if Config.freeBit s.free then powerOff (useFree s) else useFree s

/-- POWER_LOSS (R543). -/
def execPowerLoss (us : Nat) (s : State) : Host.Outcome State Fault Refusal := .next (whenOn s (powerLoss us))

/-- A journal with its close marker written: from then on the flash takes no write (R544). -/
def closeJournal (L : Lane) : Lane :=
  if L.journal then
    let nv := { L.nv with closed := true }
    { L with journal := false, nv := nv, flashNv := some nv }
  else L

/-- A lane that takes a power warning: a self-test in progress is ABORTED (R49), and the journal closes (R544). -/
def laneWarned (s : State) (l : LaneId) : State := modLane (abortTest s l) l closeJournal

/-- Whether a die takes a warning of a length in µs: below 2 none, from 10 all, between each die on its own (R544). -/
def warned (us : Nat) (s : State) : Bool × State :=
  if us < 2 then (false, s)
  else if 10 ≤ us then (true, s)
  else (Config.freeBit s.free, useFree s)

/-- PFAIL_WARNING (R544): each lane closes its journal, each hub stops writing the hub flash. -/
def pfailWarning (us : Nat) (s : State) : State :=
  if us < 2 then s
  else
    let s0 := { s with mod := { s.mod with pfailN := false } }
    let s1 := allLanes.foldl (fun s l =>
      let (w, s') := warned us s
      if w then laneWarned s' l else s') s0
    bothHubs.foldl (fun s h =>
      let (w, s') := warned us s
      if w then modHub s' h fun H => { H with flashStop := true } else s') s1

/-- PFAIL_WARNING (R544). -/
def execPfailWarning (us : Nat) (s : State) : Host.Outcome State Fault Refusal :=
  .next (whenOn s (pfailWarning us))

/-- A running hub with new firmware to take writes it to its copy in the hub flash, unless it has stopped writing (R487, R544); it
restarts on it later, where it does not run it already. -/
def writeFirmware (H : Hub) : Hub :=
  match H.fwDue with
  | none => H
  | some v =>
    if H.fwRunning && !H.flashStop then
      { H with fwFlash := v, fwFlashOk := true, fwDue := none, fwNew := if H.fwVersion = v then none else some v }
    else H

/-- A hub is to take new firmware: it writes it at once or as soon as it can (R487). -/
def takeFirmware (v : Word) (H : Hub) : Hub := writeFirmware { H with fwDue := some v }

/-- JOURNAL_REOPEN: every write deferred is made (R544). -/
def journalReopen (s : State) : State :=
  let s1 := modLanes { s with mod := { s.mod with pfailN := true } } allLanes fun _ L =>
    if L.journal then L else { L with journal := true, flashNv := none, nv := { L.nv with closed := false } }
  bothHubs.foldl (fun s h => modHub s h fun H => writeFirmware { H with flashStop := false }) s1

/-- JOURNAL_REOPEN (R544). -/
def execJournalReopen (s : State) : Host.Outcome State Fault Refusal := .next (whenOn s journalReopen)

/-! ## Supply (R31, R511, R541) -/

/-- How far out of range a rail lies (R541): 0 never acts, 1 in the band, 2 beyond the limit at which it always acts. -/
def railBand (rail : Rail) (mv : Nat) : Nat :=
  match rail with
  | .vdd => if 805 ≤ mv && mv ≤ 905 then 0 else if mv < 800 || 915 < mv then 2 else 1
  | .vaux => if 1680 ≤ mv && mv ≤ 1920 then 0 else if mv < 1650 || 1950 < mv then 2 else 1
  | .doze => if 560 ≤ mv then 0 else if mv < 550 then 2 else 1

/-- Whether the monitor compares a rail: in DOZE the core rail with the retention floor, in every other state with the
operating range (R496). -/
def railWatched (p : PowerSt) (rail : Rail) : Bool :=
  match rail with
  | .vdd => p != .doze
  | .vaux => true
  | .doze => p == .doze

/-- The monitor fences the lane, and a self-test in progress is ABORTED (R46, R49); the full self-test waits for the
supply to return (R31); the third supply fence in 24 h retires the lane (R511). -/
def supplyFence (s : State) (l : LaneId) : State :=
  let s0 := abortTest s l
  let L := lane s0 l
  let now := s.grp.groupTime.toNat
  let recent := L.supplyFences.filter fun t => now < t + ticks24h
  let (c, y) := curCtxCyc L
  let waits (L : Lane) : Lane :=
    { L with supplyOk := false, st := if L.st == .selfTest then .boot else L.st,
             selfTest := { L.selfTest with running := false } }
  let s1 := modLane (fence s0 l 3 c y 0xFFFF) l waits
  if L.fenced || L.nv.retire ≠ 0 then s1
  else
    let s2 := modLane s1 l fun L => { L with supplyFences := recent ++ [now] }
    if 2 ≤ recent.length then retire s2 l 6 else s2

/-- SUPPLY_EXCURSION of a length in ns (R496, R541): certain, impossible or free as the bands and times give. -/
def supplyExcursion (l : LaneId) (rail : Rail) (mv ns : Nat) (s : State) : State :=
  let b := railBand rail mv
  if b = 0 || ns < 1000 || !railWatched (lane s l).power rail then s
  else if b = 2 && 10000 ≤ ns then supplyFence s l
  else if Config.freeBit s.free then supplyFence (useFree s) l else useFree s

/-- SUPPLY_EXCURSION (R541). -/
def execSupplyExcursion (l : LaneId) (rail : Rail) (mv : Nat) (ns : Nat) (s : State) :
    Host.Outcome State Fault Refusal := .next (whenOn s (supplyExcursion l rail mv ns))

/-- SUPPLY_RECOVERY: 100 ms in range, and the full self-test starts (R31). -/
def supplyRecovery (l : LaneId) (s : State) : State :=
  let L := lane s l
  if L.supplyOk then s
  else if L.nv.retire ≠ 0 then setLane s l { L with supplyOk := true }
  else
    let L1 := startSelfTest { L with supplyOk := true } L.selfTest.cmd L.fenced L.selfTest.tags
    setLane s l { L1 with selfTest := { L1.selfTest with joiner := L.selfTest.joiner } }

/-- SUPPLY_RECOVERY (R31). -/
def execSupplyRecovery (l : LaneId) (s : State) : Host.Outcome State Fault Refusal :=
  .next (whenOn s (supplyRecovery l))

/-! ## Temperature (R559) -/

/-- TALERT_N after a die's temperature (R559): a die at 123 °C or more has reached the threshold, one below 117 °C has
not, between is free; every die below 112 °C releases the pin. -/
def thermalAlert (die : Die) (t : Int) (s : State) : State :=
  let others := s.mod.hot.filter fun d => d != die
  let put (s : State) (hot : List Die) (low : Bool) : State :=
    { s with mod := { s.mod with hot := hot, talertN := !low } }
  if t < 112 then put s others (!others.isEmpty && !s.mod.talertN)
  else if 123 ≤ t then put s (others ++ [die]) true
  else if t < 117 then s
  else
    let reached := Config.freeBit s.free
    let s1 := useFree s
    if reached then put s1 (others ++ [die]) true else s1

/-- THERMAL_ALERT (R559). -/
def execThermalAlert (die : Die) (tempC : Int) (s : State) : Host.Outcome State Fault Refusal :=
  .next (whenOn s (thermalAlert die tempC))

/-! ## Hub firmware (R13, R253, R264, R297) -/

/-- The hub firmware in a lane's active bank. -/
def bankFirmware (nv : LaneNv) : Option (List Byte) :=
  (bankSection (activeBank nv).data 5).map fun x => memBytes (activeBank nv).data x.1 x.2

/-- The firmware copy a hub finds in the active banks of the seated lanes: any of them may serve, and the model takes the
first in seat order that holds one (R13; DESIGN CHOICE, log 104). -/
def seatedFirmware (s : State) : Option (List Byte) :=
  (seated s).findSome? fun l => bankFirmware (lane s l).nv

/-- The last passed uplink sequences a starting hub takes from the lanes (R297): those of the lowest seated lane, before
a formation those of its journal. -/
def lanePassed (s : State) : Tbl (Word × Nat) :=
  match (seated s).head? with
  | some l => (lane s l).stn.filterMap fun e => e.2.lastSeq.map fun q => (e.1, (q, e.2.sinceUp))
  | none =>
    match allLanes.find? fun l => (lane s l).nv.retire == 0 with
    | some l => (lane s l).nv.upSeq
    | none => []

/-- A guardian whose hub listens (R253): it has no prediction until the hub has a boundary again. -/
def guardListen (g : Guard) : Guard :=
  { st := .listen, lastCold := g.lastCold }

/-- A port back in LISTEN (R264): it sends nothing, and its listen timeout runs from an instant of its clock (log 44). -/
def toListen (from_ : Int) (P : Port) : Port :=
  { P with node := .listen, known := false, heard := false, values := [], syncs := [], lastSyncs := 0, listenNs := from_,
           goodRds := 0, missRds := 0, fewRds := 0, quietRds := 0, sending := none, coldPhase := false,
           settled := false, outbid := false,
           guard := guardListen P.guard }

/-- A port whose hub has stopped: it listens, and its guardian holds the transmitter off (R253, R264). -/
def stopPort (P : Port) : Port := { toListen 0 P with guard := {}, sent := [] }

/-- A port whose hub begins to listen (R253, R264): its clock counts from that instant, and it reports its link (R225). -/
def listenPort (P : Port) : Port :=
  { toListen 0 P with boundaryNs := 0, attempt := 0, collisions := 0, colds := [], collAt := none, guard := guardListen {},
                      toldDown := !P.linkUp }

/-- A hub whose firmware has stopped: nothing it had not passed on is left, its scans are lost, and its ports are CLOSED (R253, R390,
R446). -/
def stopHub (H : Hub) : Hub :=
  { dropScans [0, 1, 2, 3] H with
    fwRunning := false, outbox := [], tele := [], grantTele := [], lo := stopPort H.lo, hi := stopPort H.hi }

/-- The firmware of a hub runs: the host side starts with RUNNING = 0 and no handles (R445); handles that no other hub
has adopted are gone (R446). -/
def startFirmware (s : State) (h : HubId) (version : Word) : State :=
  let passed := lanePassed s
  let s1 := (s.grp.handles.filter fun x => x.server == h).foldl (fun s x => modGrp s fun g => closeHandle g x) s
  modHub s1 h fun H0 =>
    let H := hostGone H0
    let new := if H.fwNew = some version then none else H.fwNew
    writeFirmware
     { H with fwRunning := true, fwVersion := version, fwNew := new, phyReset := false, lo := listenPort H.lo,
              hi := listenPort H.hi, passed := passed }

/-- A hub that has stopped serves handles or has commands in flight, and the lanes do not hold it lost yet: its restart
waits for the loss (R439, R446). -/
def lossDue (s : State) (h : HubId) : Bool :=
  !(seated s).isEmpty && !(hub s h).lost && ((s.grp.handles.any fun x => x.server == h) || inFlight s h != 0)

/-- HUB_FIRMWARE_LOADED: from the hub flash, or from a seated lane's bank when the flash copy fails its check; without
either the hub stays in reset (R13, R533). -/
def hubLoaded (h : HubId) (flashOk : Bool) (s : State) : State :=
  let H := hub s h
  if H.fwRunning || lossDue s h then s
  else
    let s0 := modHub s h fun H => { H with fwFlashOk := flashOk }
    if flashOk then startFirmware s0 h (if H.fwFlash = 0 then Config.hubFwVersion else H.fwFlash)
    else match seatedFirmware s with
      | some bytes => startFirmware s0 h (Config.fwVersionOf bytes)
      | none => s0

/-- HUB_FIRMWARE_LOADED (R13). -/
def execHubFirmwareLoaded (h : HubId) (flashOk : Bool) (s : State) : Host.Outcome State Fault Refusal :=
  .next (whenOn s (hubLoaded h flashOk))

/-! ## Image vote (R484, R485, R488, R524) -/

/-- The sequence number of a lane's active-bank record. -/
def activeSeq (nv : LaneNv) : Nat :=
  if nv.rec0.valid && (!nv.rec1.valid || nv.rec1.sq ≤ nv.rec0.sq) then nv.rec0.sq
  else if nv.rec1.valid then nv.rec1.sq else 0

/-- A lane's flash with its active-bank record rewritten in the older copy (R484). -/
def setActive (nv : LaneNv) (b : Bool) (sq : Nat) : LaneNv :=
  let r : BankRec := { bankB := b, sq := sq, valid := true }
  if nv.rec0.valid && (!nv.rec1.valid || nv.rec1.sq ≤ nv.rec0.sq) then { nv with rec1 := r } else { nv with rec0 := r }

/-- A lane's flash with both copies of its active-bank record as another lane's record stands (R524; log 47): with one
copy a higher sequence of its own would stay in force. -/
def matchActive (nv : LaneNv) (b : Bool) (sq : Nat) : LaneNv :=
  let r : BankRec := { bankB := b, sq := sq, valid := true }
  { nv with rec0 := r, rec1 := r }

/-- The bank hash of a lane's active bank: the recorded one, else that of its content (R466). -/
def activeHash (nv : LaneNv) : BitVec 256 :=
  let b := activeBank nv
  b.hash.getD (sha256Num (memBytes b.data 0 b.len))

/-- The IMAGE_ID of a lane's active bank. -/
def activeImage (nv : LaneNv) : DWord := bankImageId (activeBank nv).data

/-- A planned activation with AT_START takes place at a start at or after ACT_ROUND (R478): the verified inactive bank
becomes active, and the session is in PROBATION. -/
def activateAtStart (nv : LaneNv) : LaneNv :=
  match nv.sess with
  | some x =>
    if x.st = .planned && x.hdr.atStart && x.act.toNat ≤ nv.roundHwm && (inactiveBank nv).hash == some x.hdr.toHash then
      { setActive nv (!activeIsB nv) (activeSeq nv + 1) with
        sealOld := nv.sealRec, sealRec := nv.sealRec.map fun r => { hat := x.hdr.toHat, round := r.round },
        probation := true }
    else nv
  | none => nv

/-- The lanes that vote: not retired, and through their full self-test (R524). -/
def voters (s : State) : List LaneId :=
  allLanes.filter fun l => (lane s l).nv.retire == 0 && (lane s l).verdict == 1 && !(lane s l).selfTest.running

/-- Voters whose active bank holds an image. -/
def votesFor (s : State) (id : DWord) : Nat := ((voters s).filter fun l => activeImage (lane s l).nv == id).length

/-- The winner of the vote and its kind: 0 unanimous, 1 majority, 2 tie or no majority, the former image kept: that of
the lowest record sequence, which no activation has raised (R524, R532). -/
def voteResult (s : State) : Option (DWord × Nat) :=
  let vs := voters s
  let best := (vs.map fun l => votesFor s (activeImage (lane s l).nv)).foldl max 0
  let top := vs.filter fun l => votesFor s (activeImage (lane s l).nv) == best
  let former := top.foldl (fun (b : Option LaneId) l => match b with
    | none => some l
    | some k => if activeSeq (lane s l).nv < activeSeq (lane s k).nv then some l else some k) none
  former.map fun l =>
    let id := activeImage (lane s l).nv
    if best < 2 || top.any fun k => activeImage (lane s k).nv != id then (id, 2)
    else if best = vs.length then (id, 0) else (id, 1)

/-- A lane after the vote (R524): with the winner it goes on; in the minority it rewrites its records as the
majority's stand when its other bank's content has the majority's bank hash, and otherwise waits for a bank copy. -/
def votedLane (L : Lane) (win : DWord) (maj : LaneNv) : Lane :=
  if activeImage L.nv = win then { L with imgOk := true }
  else
    let o := inactiveBank L.nv
    if activeHash maj == sha256Num (memBytes o.data 0 o.len) then
      { L with imgOk := true, rewrote := true,
               nv := { matchActive L.nv (!activeIsB L.nv) (activeSeq maj) with
                 sealRec := maj.sealRec, sealOld := maj.sealOld, probation := maj.probation } }
    else { L with imgOk := false }

/-- A lane back on its former bank with its seal record (R485). A module sealed since the activation does not unseal: the record
of the hat confirmed then stays (R374; DEDUCED, log 143). -/
def revertedNv (nv : LaneNv) : LaneNv :=
  { setActive nv (!activeIsB nv) (activeSeq nv + 1) with sealRec := nv.sealOld.or nv.sealRec, probation := false, sess := none }

/-- What becomes of an update session at a start (R485, R488): the session, the SESSION note of R532, and whether the
lanes revert. -/
def sessionAtStart (s : State) (win : DWord) (x : Session) : Option Session × Nat × Bool :=
  let y := { x with handle := 0, vTag := none, cTag := none }
  let someNew := (voters s).any fun l => activeImage (lane s l).nv == x.hdr.toImage
  let confirmed := ((voters s).filter fun l => (lane s l).nv.sess.isNone && activeImage (lane s l).nv == win).length
  match x.st with
  | .download => (some y, 4, false)
  | .applying => (some y, 4, false)
  | .verifying => (some { y with st := .applying }, 4, false)
  | .verified => (some y, 0, false)
  | .failed => (some y, 0, false)
  | .planned =>
    if win = x.hdr.toImage then (some { y with st := .probation }, 1, false)
    else if someNew then (some { y with st := .verified, cause := 4, act := 0 }, 3, false)
    else (some y, 0, false)
  | .probation =>
    if win ≠ x.hdr.toImage then (some { y with st := .verified, cause := 4, act := 0 }, 3, false)
    else if 2 ≤ confirmed then (none, 0, false)
    else if x.hdr.revertOk then (none, 2, true)
    else (some y, 1, false)

/-- The session the voters' journals hold: that of the lowest one that holds any. -/
def journalSession (s : State) : Option Session := (voters s).findSome? fun l => (lane s l).nv.sess

/-- A lane's part in a session at a start, from its journal (R469, R471, R472, R488): it has missed blocks when its own
journal stands at another block than the session. -/
def updAtStart (y : Session) (nv : LaneNv) : LaneUpd :=
  let missed := (nv.sess.map (·.next)) != some y.next
  match y.st with
  | .probation => { st := if activeImage nv == y.hdr.toImage then 3 else 4 }
  | _ =>
    if (inactiveBank nv).hash == some y.hdr.toHash then { st := 3 }
    else if y.st = .failed then { st := 5 }
    else if y.st = .verified || y.st = .planned then { missed := true, st := 4 }
    else { missed := missed, st := if !nv.staged.isEmpty then 1 else if y.st = .download then 0 else 2 }

/-- A lane takes a session up again at a start (R469). -/
def sessLane (y : Option Session) (L : Lane) : Lane :=
  match y with
  | none => { L with upd := {}, nv := { L.nv with sess := none, probation := false } }
  | some z =>
    let u := updAtStart z L.nv
    let late := z.st == .verified || z.st == .planned || z.st == .probation
    { L with upd := u, verified := u.st == 3 || !late,
             nv := { L.nv with sess := some { z with next := (L.nv.sess.map (·.next)).getD 0 },
                               probation := z.st == .probation } }

/-- A session that counts as confirmed at a start (R488): with HUB_FW the hubs take the new firmware (R487). -/
def confirmedAtStart (x : Session) (maj : LaneNv) (s : State) : State :=
  match (if x.hdr.hubFw then bankFirmware maj else none) with
  | none => s
  | some bytes =>
    let v := Config.fwVersionOf bytes
    bothHubs.foldl (fun s h => modHub s h (takeFirmware v)) s

/-- IMAGE_VOTE (R524): the vote, the minority's records, and the session's fate; after a revert the active image is the former one
(R485). -/
def imageVote (s : State) : State :=
  if s.grp.gst ≠ .forming || s.grp.voted.isSome || (allLanes.any fun l => (lane s l).selfTest.running) then s
  else
    let s1 := modLanes s (voters s) fun _ L => { L with nv := activateAtStart L.nv }
    match voteResult s1 with
    | none => modGrp s1 fun g => { g with voted := some 0, voteKind := 2 }
    | some (win, kind) =>
      let maj := match (voters s1).find? fun l => activeImage (lane s1 l).nv == win with
        | some l => (lane s1 l).nv
        | none => {}
      let s2 := modLanes s1 (voters s1) fun _ L => votedLane L win maj
      let s3 := modGrp s2 fun g => { g with voted := some win, voteKind := kind }
      match journalSession s1 with
      | none => s3
      | some x =>
        let (y, note, rev) := sessionAtStart s1 win x
        let s4 := modLanes s3 (voters s3) fun _ L =>
          if rev && activeImage L.nv == x.hdr.toImage then { L with nv := revertedNv L.nv } else sessLane y L
        let runs := if rev then ((voters s4).head?).elim win fun l => activeImage (lane s4 l).nv else win
        let s5 := { s4 with grp := { s4.grp with session := y, voted := some runs,
                                                 actAt := (y.filter fun z => z.st == .planned).map (·.act) }
                            mod := { s4.mod with sessNote := note } }
        if y.isNone && !rev then confirmedAtStart x maj s5 else s5

/-- IMAGE_VOTE (R524). -/
def execImageVote (s : State) : Host.Outcome State Fault Refusal := .next (whenOn s imageVote)

/-- A lane that passes its self-test after the vote is held to its result (R524, R533). -/
def lateVote (s : State) (l : LaneId) : Lane :=
  let L := lane s l
  if L.imgOk || s.grp.gst = .forming || L.verdict ≠ 1 then L
  else match s.grp.voted, (seated s).head? with
    | some win, some k => votedLane L win (lane s k).nv
    | _, _ => L

/-- A lane whose image is decided loads it (R375); after formation its eligibility follows at once (R533). -/
def imageLoaded (l : LaneId) (s : State) : State :=
  let L := lateVote s l
  if L.loaded || !L.imgOk || L.nv.retire ≠ 0 || L.selfTest.running then s
  else
    let s1 := setLane s l (loadImage L)
    if s.grp.gst = .forming then s1
    else
      let ok := eligible s1 l
      settle (modLane s1 l fun L => { L with barred := L.barred || !ok }) 3

/-- IMAGE_LOAD_COMPLETE (R375). -/
def execImageLoadComplete (l : LaneId) (s : State) : Host.Outcome State Fault Refusal :=
  .next (whenOn s (imageLoaded l))

/-! ## Settings (R412, R514) -/

/-- The ids of the settings. -/
def stampedIds : List Nat := [1, 2, 3] ++ (List.range 32).map (0x100 + ·)

/-- The factory value of a setting (R412). -/
def factoryValue (sid : Nat) : Word := if sid = 1 then 60 else if sid = 2 then 30 else 0

/-- The saved values of a lane: the valid copy with the higher sequence (R514). -/
def savedOf (nv : LaneNv) : Tbl Word :=
  if nv.set0.valid && (!nv.set1.valid || nv.set1.sq ≤ nv.set0.sq) then nv.set0.vals
  else if nv.set1.valid then nv.set1.vals else []

/-- A lane's flash with its saved settings written in the older copy (R514). -/
def writeSaved (nv : LaneNv) (vals : Tbl Word) : LaneNv :=
  let zero := nv.set0.valid && (!nv.set1.valid || nv.set1.sq ≤ nv.set0.sq)
  if zero then { nv with set1 := { vals := vals, sq := nv.set0.sq + 1, valid := true } }
  else { nv with set0 := { vals := vals, sq := (if nv.set1.valid then nv.set1.sq else 0) + 1, valid := true } }

/-- The running value of a setting of the group. -/
def runningOf (x : Settings) (sid : Nat) : Word :=
  if sid = 1 then BitVec.ofNat 32 x.holdoff
  else if sid = 2 then BitVec.ofNat 32 x.rotDays
  else if sid = 3 then BitVec.ofNat 32 x.pmuUser.toNat
  else BitVec.ofInt 32 (tblGetD x.isense (sid - 0x100) 0)

/-- The group's settings with one running value set. -/
def setRunning (x : Settings) (sid : Nat) (v : Word) : Settings :=
  if sid = 1 then { x with holdoff := v.toNat }
  else if sid = 2 then { x with rotDays := v.toNat }
  else if sid = 3 then { x with pmuUser := v != 0 }
  else { x with isense := tblSet x.isense (sid - 0x100) v.toInt }

/-- The saved value of a setting in a lane; none when it has none. -/
def savedValue (s : State) (l : LaneId) (sid : Nat) : Option Word := tblGet (savedOf (lane s l).nv) sid

/-- The value two seats agree on; else none (R514). -/
def agreedValue (s : State) (ls : List LaneId) (sid : Nat) : Option (Option Word) :=
  match ls with
  | [] => some none
  | [l] => some (savedValue s l sid)
  | _ => (ls.find? fun l => 2 ≤ (ls.filter fun k => savedValue s k sid == savedValue s l sid).length).map
      fun l => savedValue s l sid

/-- The SETTINGS_RESET event (R411, R486, R514). -/
def settingsReset (s : State) (old new : Nat) : State :=
  event s bothHubs 0x800A none 0 0 (leBytes 2 old ++ leBytes 2 new)

/-- The settings-format version of the firmware a lane runs (R465, R486). -/
def runFormat (nv : LaneNv) : Nat := ((activeBank nv).sfmt.getD Config.settingsFormat).toNat

/-- The lanes that decide on the settings, the lowest first: the seated ones; where a start seats none, those not retired
(R514; DEDUCED, log 148). -/
def settingsLanes (s : State) : List LaneId :=
  let ls := allLanes.filter (isSeated s)
  if ls.isEmpty then allLanes.filter fun l => (lane s l).nv.retire == 0 else ls

/-- The lane whose saved values a hub shows: the lowest-numbered seated one (R514). -/
def savedLane (s : State) : Option LaneId := (settingsLanes s).head?

/-- The decision on the settings at a start (R412, R486, R514). A lane's block keeps its own value of a setting that is not stamped,
and of one on which no two seats agree, for which the rule has no lane rewrite anything. -/
def decideSettings (s : State) : State :=
  let ls := settingsLanes s
  let format := match ls.head? with
    | some l => runFormat (lane s l).nv
    | none => Config.settingsFormat.toNat
  let old := match ls.head? with
    | some l => (lane s l).nv.setFormat
    | none => format
  let changed := old != 0 && old != format
  let s0 := modLanes s allLanes fun _ L =>
    if changed then { L with nv := { L.nv with set0 := {}, set1 := {}, setFormat := format } }
    else { L with nv := { L.nv with setFormat := format } }
  let decided := stampedIds.map fun sid => (sid, agreedValue s0 ls sid)
  let run := decided.foldl (fun (x : Settings) d => setRunning x d.1 ((d.2.getD none).getD (factoryValue d.1)))
    ({ format := format } : Settings)
  let clash := decided.any fun d => d.2.isNone
  let vals := decided.foldl (fun (t : Tbl Word) d => match d.2 with
    | some (some v) => tblSet t d.1 v
    | _ => t) []
  let s1 := modGrp s0 fun g => { g with settings := run }
  let s2 := modLanes s1 ls fun _ L =>
    let mine := savedOf L.nv
    let keep := 4 :: (decided.filter fun d => d.2.isNone).map (·.1)
    let want := keep.foldl (fun (t : Tbl Word) sid => match tblGet mine sid with
      | some v => tblSet t sid v
      | none => t) vals
    if mine == want then L else { L with nv := writeSaved L.nv want }
  let modUs := ((ls.head?.bind fun l => savedValue s0 l 4).getD 0).toNat
  let s3 := bothHubs.foldl (fun s h => modHub s h fun H => { H with moderation := modUs }) s2
  let s4 := if changed then settingsReset s3 old format else s3
  if clash then settingsReset s4 format format else s4

/-! ## START record (R532) -/

/-- LANE_OUTCOME of a lane (R532). -/
def laneOutcome (s : State) (l : LaneId) : Nat :=
  let L := lane s l
  let hi :=
    if L.nv.retire ≠ 0 then 1
    else if L.verdict ≠ 1 then 2
    else if L.rewrote then 5
    else if !L.imgOk then 6
    else if !headerOk L then 7
    else if isSealed s && (L.nv.sealRec.map (·.hat)) != some L.hat then 3
    else if isSealed s && (L.nv.sealRec.all fun r => !sealMajority s r.hat) then 4
    else if !hatOk s l then 3
    else 0
  L.verdict % 16 + 16 * hi

/-- The START record in every lane (R532). -/
def startRecord (s : State) (serviceMs : Nat) : State :=
  let g := s.grp
  let body (L : Lane) : List Byte :=
    leBytes 4 L.nv.startCount ++ leBytes 1 s.mod.stopCause ++ (allLanes.flatMap fun l => leBytes 1 (laneOutcome s l)) ++
      leBytes 1 g.voteKind ++ leBytes 1 (gstCode g.gst) ++ leBytes 1 g.roundSrc ++ leBytes 8 (g.voted.getD 0).toNat ++
      leBytes 2 s.mod.startMs ++ leBytes 2 serviceMs ++ leBytes 1 s.mod.sessNote
  (allLanes.filter fun l => (lane s l).st != .retired).foldl (fun s l => diag s l 1 (body (lane s l))) s

/-- The outcome of a GROUP_RESTART at the moment of the START record (R575). -/
def restartOutcome (s : State) : State :=
  match s.mod.restartCmd with
  | none => s
  | some (h, tag) =>
    let s1 := { s with mod := { s.mod with restartCmd := none } }
    outcome s1 h tag (if s.mod.op == .safe then stNotPermitted else stOk)
      (leBytes 1 (opCode s.mod.op) ++ leBytes 8 (groupWordOf s1).toNat)

/-- The module has entered SERVICE, BENCH or SAFE after a start. -/
def startDone (s : State) (serviceMs : Nat) : State := restartOutcome (startRecord s serviceMs)

/-! ## Formation (R68, R518, R525) -/

/-- The spare of four eligible lanes: the one most of the lanes' spare records name, else the highest-numbered (R525). -/
def spareOf4 (s : State) (es : List LaneId) : Option LaneId :=
  let named := es.find? fun l => allLanes.length < 2 * (allLanes.filter fun k => (lane s k).nv.spareRec == some l).length
  match named with
  | some l => some l
  | none => es.getLast?

/-- The module enters BENCH at formation (R518). -/
def benchAtFormation (s : State) : Bool :=
  s.mod.wasBench || !isSealed s || (s.grp.cfg.benchPermit && !s.mod.benchSample)

/-- The configuration of the lowest lane of a list. -/
def cfgOfFirst (s : State) (ls : List LaneId) : Cfg :=
  match ls.head? with
  | some l => (lane s l).cfg
  | none => {}

/-- Both tiles take the seat map and their configuration words (R339, R340, R520 step 8). -/
def tileFormed (g : Group) (t : TileId) (T : Tile) : Tile :=
  { T with
    word := match t with
      | .t0 => g.cfg.tileWords.a
      | .t1 => g.cfg.tileWords.b
    chWords := ((g.cfg.chans.drop (16 * tileNum t)).take 16).map (·.word)
    map := g.seats, offered := ⟨none, none, none, none⟩, newMap := none }

/-- A seated lane, a spare or a lane without a role at formation (R525). In BENCH the debug port reaches every lane but a
retired one, which runs no core work (R48, R52). -/
def formLane (s : State) (l : LaneId) (m : SeatMap) (spare : Option LaneId) (bench : Bool) (L : Lane) : Lane :=
  let L1 := { L with hubWords := true, unlocked := bench && L.nv.retire == 0, barred := !eligible s l,
                     fenced := false, prefSeat := seatNumOf m l, map := m, nv := { L.nv with spareRec := spare } }
  if (seatOf m l).isSome then { L1 with st := .seated, gatesOn := true }
  else if spare = some l then { L1 with st := .sparePaired, spareSince := s.grp.groupTime.toNat }
  else L1

/-- A hub reports itself integrated in the bus: on one of its ports at least (log 41). -/
def hubIntegrated (H : Hub) : Bool := H.fwRunning && (H.lo.node == .integrated || H.hi.node == .integrated)

/-- The bus round in progress as the lower-numbered integrated hub reports it (R272, R522). -/
def busRound (s : State) : Option DWord :=
  let of (H : Hub) : Option DWord :=
    if !H.fwRunning then none
    else if H.lo.node = .integrated then some H.lo.round
    else if H.hi.node = .integrated then some H.hi.round
    else none
  (of s.hubs.a).or (of s.hubs.b)

/-- A planned activation whose round has passed without it is abandoned with cause 4; round r, the first to start, is still ahead
(R488). -/
def stalePlan (g : Group) (r : DWord) : Group :=
  match g.session with
  | some x =>
    if x.st = .planned && !x.hdr.atStart && x.act < r then
      { g with session := some { x with st := .verified, cause := 4, act := 0 }, actAt := none }
    else g
  | none => g

/-- The round count fixed from a source: 0 the bus, 1 ROUND_HWM (R522, R532). -/
def fixRound (s : State) (r : DWord) (src : Nat) : State :=
  let s1 := modGrp s fun g => stalePlan { g with round := r, roundFixed := true, roundSrc := src } r
  let note := if s.grp.session != s1.grp.session then 3 else s1.mod.sessNote
  modLanes { s1 with mod := { s1.mod with sessNote := note } } allLanes fun _ L => ageViews r.toNat L

/-- The highest recorded round count. -/
def roundHwm (s : State) : Nat := (allLanes.map fun l => (lane s l).nv.roundHwm).foldl max 0

/-- The round count taken from the first integrated hub, if it is at least ROUND_HWM: the group's first boundary starts
the round after the one in progress (R522). -/
def fixFromBus (s : State) : State :=
  if s.grp.roundFixed || s.grp.gst = .forming || s.grp.gst = .safe then s
  else match busRound s with
    | some r => if roundHwm s ≤ r.toNat then fixRound s (r + 1) 0 else s
    | none => s

/-- A round count kept through a GROUP_RESTART goes on: the first boundary after the formation starts the round after the one
in progress (R526). -/
def keepCount (s t : State) : State :=
  if s.grp.roundFixed && s.grp.firstBoundary then modGrp t fun g => { g with round := s.grp.round + 1 } else t

/-- The drives of a group that leaves SAFE are in STO_WAIT with STO_CAUSE 6, and each raises its event (R363, R364, R369). -/
def drivesFromSafe (s : State) : State :=
  if s.mod.stopCause = 3 then
    let s1 := modLanes s allLanes fun _ L =>
      { L with drvs := L.cfg.drives.foldl (fun t d => tblSet t d.drv { cause := 6 }) [] }
    s.grp.cfg.drives.foldl (fun s d => event s bothHubs 0x8003 (some (BitVec.ofNat 32 d.ctx)) 0 0
      (leBytes 1 d.ctx ++ leBytes 1 ctxCauseDrive ++ leBytes 1 d.drv ++ leBytes 1 6)) s1
  else s

/-- GROUP_FORMATION `ms` after power good or the restart command (R525): seats, spare role, settings, BENCH or the way
to SERVICE; with fewer than two eligible lanes SAFE. -/
def groupFormation (ms : Nat) (s : State) : State :=
  let waiting := allLanes.any fun l =>
    (lane s l).selfTest.running || ((lane s l).imgOk && !(lane s l).loaded && (lane s l).nv.retire == 0)
  if s.grp.gst ≠ .forming || s.grp.voted.isNone || waiting then s
  else
    let es := allLanes.filter (eligible s)
    let spare := if es.length = 4 then spareOf4 s es else none
    let ls := es.filter fun l => spare != some l
    let m := if 2 ≤ es.length then canonical ls else ⟨none, none, none⟩
    let s1 := { modGrp s (fun g =>
        { g with seats := m, spare := spare, cfg := cfgOfFirst s es, firstBoundary := false, seatedAt := 0,
                 gapFrom := none, proveStep := g.groupTime.toNat / 100000, proveNext := 0 }) with
                mod := { s.mod with startMs := ms } }
    keepCount s <| if es.length < 2 then
      let s2 := modLanes s1 allLanes fun l L => formLane s1 l m none false L
      startDone (enterSafe (decideSettings s2) 4) ms
    else
      let bench := benchAtFormation s1
      let s2 := modLanes s1 allLanes fun l L => formLane s1 l m spare bench L
      let s3 := decideSettings s2
      let s4 := { s3 with tiles := ⟨tileFormed s3.grp .t0 s3.tiles.a, tileFormed s3.grp .t1 s3.tiles.b⟩ }
      let gst := if es.length = 4 then GState.full else if es.length = 3 then .noSpare else .degraded
      let s5 := drivesFromSafe (setGst s4 gst 1)
      fixFromBus (if bench then startDone { s5 with mod := { s5.mod with op := .bench, wasBench := false } } ms
        else { s5 with mod := { s5.mod with wasBench := false } })

/-- GROUP_FORMATION (R525). -/
def execGroupFormation (ms : Nat) (s : State) : Host.Outcome State Fault Refusal :=
  .next (whenOn s (groupFormation ms))

/-! ## The round count (R522) -/

/-- ROUND_HWM + 65,536 rounded up to a multiple of 100 (R522, R267). -/
def hwmProposal (hwm : Nat) : DWord := BitVec.ofNat 64 ((hwm + 65536 + 99) / 100 * 100)

/-- ROUND_COUNT_TIMEOUT: no hub has integrated 1,500 ms after power good (R522). -/
def roundTimeout (s : State) : State :=
  if s.grp.roundFixed || s.grp.gst = .forming || s.grp.gst = .safe then s
  else fixRound s (hwmProposal (roundHwm s)) 1

/-- ROUND_COUNT_TIMEOUT (R522). -/
def execRoundCountTimeout (s : State) : Host.Outcome State Fault Refusal := .next (whenOn s roundTimeout)

end Sys2Proof.Machine
end

