-- ==== Sys2Proof/Machine/Freeze.lean ====
section
/-! DEFINITION. The input freeze (R116, R284-R291, R304, R338): uplinks and snapshots into station views and entries. -/

namespace Sys2Proof.Machine

open Sys2Proof

/-! ## Payload layout (R284) -/

/-- The input points a payload carries, in list order; the state point is none of them (R284). -/
def inPoints (x : StationCfg) : List PointCfg := x.points.filter fun p => !p.out && x.statePoint != some p.index

/-- The output points a payload carries, in list order. -/
def outPoints (x : StationCfg) : List PointCfg := x.points.filter fun p => p.out

/-- Bytes of a bit area of n bits. -/
def bitBytes (n : Nat) : Nat := (n + 7) / 8

/-- The offset of the word area behind a header and n bits: the next even one. -/
def wordOff (hdr n : Nat) : Nat := (hdr + bitBytes n + 1) / 2 * 2

/-- The place of a point among those of its width before it in list order. -/
def placeOf (ps : List PointCfg) (k : Nat) : Nat :=
  match ps[k]? with
  | none => 0
  | some p => ((ps.take k).filter fun q => q.word == p.word).length

/-- The value of the k-th carried point of a payload with a header of `hdr` bytes. -/
def carried (ps : List PointCfg) (hdr : Nat) (bs : List Byte) (k : Nat) : BitVec 16 :=
  match ps[k]? with
  | none => 0
  | some p =>
    let n := placeOf ps k
    if p.word then
      BitVec.ofNat 16 (beNat (sliceBytes bs (wordOff hdr (ps.filter fun q => !q.word).length + 2 * n) 2))
    else if (leAt bs (hdr + n / 8) 1).testBit (n % 8) then 1 else 0

/-- The offset behind the word area. -/
def wordsEnd (ps : List PointCfg) (hdr : Nat) : Nat :=
  wordOff hdr (ps.filter fun q => !q.word).length + 2 * (ps.filter fun q => q.word).length

/-- The validity bit of the k-th input of an uplink (R284). -/
def validBit (x : StationCfg) (bs : List Byte) (k : Nat) : Bool :=
  !x.quality || (leAt bs (wordsEnd (inPoints x) 8 + k / 8) 1).testBit (k % 8)

/-- The offset of the uplink's service area. -/
def upSvcOff (x : StationCfg) : Nat :=
  let e := wordsEnd (inPoints x) 8 + (if x.quality then bitBytes (inPoints x).length else 0)
  (e + 3) / 4 * 4

/-- The offset of the downlink's service area. -/
def dlSvcOff (x : StationCfg) : Nat := (wordsEnd (outPoints x) 4 + 3) / 4 * 4

/-! ## The frozen view (R116, R307) -/

/-- What context 0 freezes at the boundary of a round: the uplinks of the round that ended and the snapshots of this
boundary. -/
structure Frozen where
  ups : Tbl Upl
  t0  : Option Snapshot
  t1  : Option Snapshot
  deriving DecidableEq, Repr

/-- The copy of an uplink that is frozen: H0's where it came, else H1's (R116, R307). -/
def pickUpl (p : UplPair) : Option Upl := p.a.or p.b

/-- The snapshot of a tile where it belongs to a round (R313, R314). -/
def snapOf (z : Option Snapshot) (r : DWord) : Option Snapshot := z.filter fun x => x.round == r

/-- What a lane freezes at the boundary of round r. -/
def frozenOf (L : Lane) (r : DWord) : Frozen :=
  { ups := L.upl.filterMap fun e => (pickUpl e.2).map fun u => (e.1, u), t0 := snapOf L.snap0 r, t1 := snapOf L.snap1 r }

/-- The frozen snapshot of a tile by channel number 0-31. -/
def frozenTile (z : Frozen) (ch : Nat) : Option Snapshot := if ch < 16 then z.t0 else z.t1

/-- A channel of the frozen snapshots; none when the snapshot or the channel's value is missing (R310, R314). -/
def frozenChan (z : Frozen) (ch : Nat) : Option SnapChan :=
  match frozenTile z ch with
  | none => none
  | some s => (s.chans[ch % 16]?).filter fun c => !c.missing

/-! ## Station views (R289, R304, R305) -/

/-- STATION_STATUS.STATE after a freeze (R304): a valid uplink LIVE or SILENT; missing, STALE and from SILENCE_ROUNDS
on LOST; never heard, UNKNOWN. -/
def stnState (x : StationCfg) (v : StnView) (u : Option Upl) : Nat :=
  match u with
  | some up => if (leAt up.payload 1 1).testBit 0 then 4 else 1
  | none => if !v.heard then 0 else if x.silence ≤ v.sinceUp then 3 else 2

/-- A station's view after a round ended, and whether its owning context freezes here (R289, R304): STATE follows at the freezes
of that context, but LOST in the round in which the uplink is missing for SILENCE_ROUNDS (DEDUCED, log 139). -/
def stnRound (x : StationCfg) (freeze : Bool) (p : UplPair) (v : StnView) : StnView :=
  let u := pickUpl p
  let v1 : StnView := { v with chA := p.a.isSome, chB := p.b.isSome }
  let v2 : StnView := match u with
    | some up =>
      let st := leAt up.payload 1 1
      let clash := match p.a, p.b with
        | some a, some b => a.seq == b.seq && a.payload != b.payload
        | _, _ => false
      { v1 with silent := st.testBit 0, localFlt := st.testBit 1, outSafe := st.testBit 2,
                dlAge := leAt up.payload 2 1, ulAge := 0, sinceUp := 0, heard := true, lastSeq := some up.seq,
                conflicts := if clash then v1.conflicts + 1 else v1.conflicts,
                svcAns := sliceBytes up.payload (upSvcOff x) x.svcLen }
    | none => { v1 with ulAge := min 255 (v1.ulAge + 1), sinceUp := v1.sinceUp + 1, svcAns := [] }
  if freeze then
    let n := stnState x v2 u
    { v2 with state := n, evented := n != v.state,
              staleEvts := if n = 2 && v.state ≠ 2 then min 255 (v2.staleEvts + 1) else v2.staleEvts }
  else if v2.heard && u.isNone && x.silence ≤ v2.sinceUp && v.state != 0 then
    { v2 with state := 3, evented := v.state != 3 }
  else { v2 with evented := false }

/-- DL_AGE as an output entry shows it: the last known one and the rounds since (R289). -/
def shownDlAge (v : StnView) : Nat := min 255 (v.dlAge + v.sinceUp)

/-! ## Entries of stations (R287, R289, R290) -/

/-- An input entry of a station at a freeze. -/
def stnInput (x : StationCfg) (v : StnView) (u : Option Upl) (k : Nat) (p : PointCfg) (e : PointEnt) : PointEnt :=
  match u with
  | some up =>
    if validBit x up.payload k then
      { e with value := carried (inPoints x) 8 up.payload k, valid := true, subst := false, stale := false, age := 0 }
    else { e with value := p.subst, valid := false, subst := true, stale := false, age := 0 }
  | none => { e with value := p.subst, valid := false, subst := true, stale := true, age := v.ulAge }

/-- The entry of a state point (R287). -/
def stnStatePoint (v : StnView) (u : Option Upl) (e : PointEnt) : PointEnt :=
  match u with
  | some up =>
    { e with value := BitVec.ofNat 16 (leAt up.payload 1 1 * 256 + leAt up.payload 2 1), valid := true, subst := false,
             stale := false, age := 0 }
  | none => { e with value := stateMissing, valid := false, subst := true, stale := true, age := v.ulAge }

/-- An output entry of a station at a freeze (R289). -/
def stnOutput (v : StnView) (u : Option Upl) (e : PointEnt) : PointEnt :=
  { e with stale := u.elim true fun up => leAt up.payload 2 1 != 0, age := shownDlAge v }

/-- The entries of one station (R290). -/
def freezeStation (z : Frozen) (L : Lane) (m : Mem) (x : StationCfg) : Mem :=
  let v := tblGetD L.stn x.addr {}
  let u := tblGet z.ups x.addr
  let ins := inPoints x
  let m1 := (List.range ins.length).foldl (fun m k => match ins[k]? with
    | none => m
    | some p => modEnt m p.index (stnInput x v u k p)) m
  let m2 := (outPoints x).foldl (fun m p => modEnt m p.index (stnOutput v u)) m1
  x.statePoint.elim m2 fun p => modEnt m2 p (stnStatePoint v u)

/-! ## Entries of tile channels (R338) -/

/-- CH_STATE of a channel status word (R341). -/
def chStateOf (w : BitVec 16) : Nat := w.toNat % 16

/-- TP_SRC names a source (R339). -/
def hasSource (w : DWord) : Bool := w.toNat / 2 ^ 22 % 64 != 63

/-- An input channel in TP_FAIL, THRESHOLD or LOST (R338). -/
def unreadable (c : SnapChan) : Bool := [3, 4, 11].any c.conds.contains

/-- An input entry of a channel (R338). A channel in CHATTER is held at its demand value whatever else holds (R321). -/
def chanInput (w : DWord) (z : Option Snapshot) (c : Option SnapChan) (age : Nat) (val : SnapChan → BitVec 16)
    (e : PointEnt) : PointEnt :=
  match c with
  | none => { e with value := 0, valid := false, subst := true, stale := true, forced := false, age := age }
  | some c =>
    if c.conds.contains 2 then { e with value := 0, valid := false, subst := true, stale := false, forced := true, age := 0 }
    else if unreadable c || (hasSource w && z.any fun x => !x.mittenOk) then
      { e with value := 0, valid := false, subst := true, stale := false, forced := false, age := 0 }
    else { e with value := val c, valid := true, subst := false, stale := false, forced := false, age := 0 }

/-- The module holds an output channel off (R338, R512): THRESHOLD, GLOVE_FAULT, OVERLOAD, EXT_FEED, WIRED, CUFF_OPEN or LOST; a vital one
under the SAG_LATCH of its group too (R336). -/
def heldOff (w : DWord) (c : SnapChan) : Bool :=
  [4, 5, 6, 7, 8, 10, 11].any c.conds.contains || (w.getLsbD 3 && c.conds.contains 9)

/-- An output entry of a channel (R289, R338). -/
def chanOutput (w : DWord) (c : Option SnapChan) (age : Nat) (safe : Bool) (e : PointEnt) : PointEnt :=
  match c with
  | none => { e with stale := true, age := age }
  | some c => { e with stale := false, age := 0, forced := safe || heldOff w c }

/-- The entries of one channel. -/
def freezeChan (z : Frozen) (L : Lane) (m : Mem) (k : Nat) (x : ChanCfg) : Mem :=
  let c := frozenChan z k
  let age := if k < 16 then L.snapAge0 else L.snapAge1
  let sn := frozenTile z k
  let run := ctxRun L x.ctx
  let safe := run.safePub
  let m1 := match x.p0 with
    | none => m
    | some p =>
      if chMode x.word = 2 then modEnt m p (chanOutput x.word c age safe)
      else modEnt m p (chanInput x.word sn c age fun c =>
        if chCnt x.word = 0 then (if c.value then 1 else 0) else c.count.setWidth 16)
  let m2 := match x.p1 with
    | none => m1
    | some p => modEnt m1 p (chanInput x.word sn c age fun c => BitVec.ofInt 16 c.delta)
  match x.p2 with
  | none => m2
  | some p =>
    modEnt m2 p fun e => match c with
      | none => { e with value := 0, valid := false, subst := true, stale := true, age := age }
      | some c => { e with value := c.status, valid := true, subst := false, stale := false, age := 0 }

/-- The entries of a context's stations and channels at its phase I (R290, R338). -/
def freezeInputs (z : Frozen) (n : Nat) (L : Lane) (m : Mem) : Mem :=
  let m1 := (L.cfg.stations.filter fun x => x.ctx == n).foldl (freezeStation z L) m
  (List.range 32).foldl (fun m k => match L.cfg.chans[k]? with
    | some x => if x.ctx = n && chMode x.word ≠ 0 then freezeChan z L m k x else m
    | none => m) m1

/-- A lane's views of its stations and snapshot ages after a round ended (R289, R304, R338). -/
def viewsRound (z : Frozen) (r : Nat) (L : Lane) : Lane :=
  let stn := L.cfg.stations.foldl (fun t x =>
    let freeze := (ctxCfg? L.cfg x.ctx).elim true fun c => startsAt c r
    tblSet t x.addr (stnRound x freeze (tblGetD L.upl x.addr {}) (tblGetD t x.addr {}))) L.stn
  { L with stn := stn,
           snapAge0 := if z.t0.isSome then 0 else min 255 (L.snapAge0 + 1),
           snapAge1 := if z.t1.isSome then 0 else min 255 (L.snapAge1 + 1) }

/-! ## Reading inputs for functions and drives (R345) -/

/-- The channel whose value point a point is. -/
def chanOfPoint (c : Cfg) (p : Nat) : Option Nat :=
  (List.range 32).find? fun k => (c.chans[k]?).any fun x => x.p0 == some p && chMode x.word != 0

/-- The channel whose DELTA point a point is. -/
def chanOfDelta (c : Cfg) (p : Nat) : Option Nat :=
  (List.range 32).find? fun k => (c.chans[k]?).any fun x => x.p1 == some p && chMode x.word != 0

/-- A channel's value stands in for its input: it is present and not substituted (R338, R352). -/
def chanGood (w : DWord) (z : Option Snapshot) (c : SnapChan) : Bool :=
  !(c.conds.contains 2 || unreadable c || (hasSource w && z.any fun x => !x.mittenOk))

/-- A good frozen channel. -/
def goodChan (c : Cfg) (z : Frozen) (k : Nat) : Option SnapChan :=
  match frozenChan z k, c.chans[k]? with
  | some x, some w => if chanGood w.word (frozenTile z k) x then some x else none
  | _, _ => none

/-- The station that carries a point and the point's place among its inputs. -/
def stationOfPoint (c : Cfg) (p : Nat) : Option (StationCfg × Nat) :=
  match c.stations.find? fun x => (inPoints x).any fun r => r.index == p with
  | none => none
  | some x => ((List.range (inPoints x).length).find? fun k => ((inPoints x)[k]?).any fun r => r.index == p).map
      fun k => (x, k)

/-- The value of an input as context 0 freezes it; none when it is missing or SUBSTITUTED (R345, R352). -/
def frozenInput (c : Cfg) (z : Frozen) (p : Nat) : Option (BitVec 16) :=
  match chanOfPoint c p with
  | some k => (goodChan c z k).map fun x => if x.value then 1 else 0
  | none =>
    match chanOfDelta c p with
    | some k => (goodChan c z k).map fun x => BitVec.ofInt 16 x.delta
    | none =>
      match stationOfPoint c p with
      | none => none
      | some (x, k) =>
        match tblGet z.ups x.addr with
        | none => none
        | some up => if validBit x up.payload k then some (carried (inPoints x) 8 up.payload k) else none

/-- A bit input as context 0 freezes it, its substitute value where it is missing. -/
def frozenBit (c : Cfg) (z : Frozen) (p : Nat) : Bool :=
  match frozenInput c z p with
  | some v => v != 0
  | none => ((cfgPoints c).find? fun x => x.index == p).any fun x => x.subst != 0

end Sys2Proof.Machine
end

