-- ==== Sys2Proof/Machine/SafeFn.lean ====
section
/-! DEFINITION. Two-channel functions and supervised drives (R345-R365, R369). -/

namespace Sys2Proof.Machine

open Sys2Proof

/-! ## Samples (R349-R353) -/

/-- A sample of a two-channel function (R352, R353). -/
inductive FnSample where
  | ad | ar | x | missing
  deriving DecidableEq, Repr

/-- The demand value of channel B (R347). -/
def demandB (f : FnCfg) : Bool := if f.anti then !f.demandA else f.demandA

/-- The sample two values make (R353). -/
def sampleOf (f : FnCfg) (a b : Bool) : FnSample :=
  if a = f.demandA && b = demandB f then .ad
  else if a ≠ f.demandA && b ≠ demandB f then .ar
  else .x

/-- A channel's debounced value at an offset in the round that ended (R350): the last change that counts as before it. -/
def valueAt (c : SnapChan) (off : Nat) : Bool :=
  match (c.changes.filter fun e => e.off ≤ off).getLast? with
  | some e => e.val
  | none => c.before

/-- The discrepancy ticks of a round (R349) as offsets in 5 µs units from the earlier boundary: group time g0 to
g0 + d. -/
def tickOffsets (g0 d : Nat) : List Nat :=
  ((List.range d).filter fun k => (g0 + k + 1) % 10 == 0).map fun k => 20 * (k + 1)

/-- The samples of a tile pair in a round (R349, R350, R352). -/
def tileSamples (c : Cfg) (z : Frozen) (f : FnCfg) (ka kb g0 d : Nat) : List FnSample :=
  (tickOffsets g0 d).map fun off =>
    match goodChan c z ka, goodChan c z kb with
    | some a, some b => if a.tooMany || b.tooMany then .missing else sampleOf f (valueAt a off) (valueAt b off)
    | _, _ => .missing

/-- The sample of a station pair in a round (R349, R352). -/
def stationSample (c : Cfg) (z : Frozen) (f : FnCfg) : FnSample :=
  match frozenInput c z f.chA, frozenInput c z f.chB with
  | some a, some b => sampleOf f (a != 0) (b != 0)
  | _, _ => .missing

/-- The channels of a function when it is a tile pair. -/
def tilePair (c : Cfg) (f : FnCfg) : Option (Nat × Nat) :=
  match chanOfPoint c f.chA, chanOfPoint c f.chB with
  | some a, some b => some (a, b)
  | _, _ => none

/-- The samples of a function in a round. -/
def fnSamples (c : Cfg) (z : Frozen) (f : FnCfg) (g0 d : Nat) : List FnSample :=
  match tilePair c f with
  | some (a, b) => tileSamples c z f a b g0 d
  | none => [stationSample c z f]

/-- m: the X samples that make a fault (R353); d is the round length in ticks. -/
def fnLimit (c : Cfg) (f : FnCfg) (d : Nat) : Nat :=
  if (tilePair c f).isSome then f.n else (f.n * 10 + d - 1) / d

/-! ## Moves (R353, R354) -/

/-- A function that enters FAULT, or is still in it: every entry is counted (R354). -/
def fnFault (x : FnRun) : FnRun :=
  { x with st := .fault, entered := if x.st = .fault then x.entered else x.entered + 1 }

/-- A function after one sample. -/
def fnStep (m : Nat) (x : FnRun) (smp : FnSample) : FnRun :=
  match smp with
  | .missing => x
  | .ad =>
    { x with c := 0, st := match x.st with
      | .proofD => .proofR
      | .proofR => .proofR
      | .released => .demand
      | .demand => .demand
      | .discrepant => .demand
      | .fault => .proofR }
  | .ar =>
    { x with c := 0, st := match x.st with
      | .proofD => .proofD
      | .proofR => .released
      | .released => .released
      | .demand => .released
      | .discrepant => .released
      | .fault => .fault }
  | .x =>
    if m ≤ x.c + 1 then { fnFault x with c := x.c + 1 }
    else { x with c := x.c + 1, st := match x.st with
      | .proofD => .proofD
      | .proofR => .proofR
      | .released => .discrepant
      | .demand => .discrepant
      | .discrepant => .discrepant
      | .fault => .fault }

/-- The values at the boundary agree on release (R355); no condition for a station pair. -/
def fnAtRelease (c : Cfg) (z : Frozen) (f : FnCfg) : Bool :=
  match tilePair c f with
  | none => true
  | some (a, b) => match goodChan c z a, goodChan c z b with
    | some x, some y => sampleOf f x.value y.value == .ar
    | _, _ => false

/-- A function after a round (R353, R355). -/
def fnRound (c : Cfg) (z : Frozen) (f : FnCfg) (g0 d : Nat) (x : FnRun) : FnRun :=
  let smp := fnSamples c z f g0 d
  let y := smp.foldl (fnStep (fnLimit c f d)) { x with entered := 0 }
  { y with enable := y.st == .released && !smp.contains .missing && fnAtRelease c z f }

/-- A function in PROOF_D with its count 0 (R354): at a boundary it then takes that round's samples (R369). -/
def fnProof (x : FnRun) : FnRun := { x with st := .proofD, c := 0, enable := false, moved := none }

/-- The code of a function state (R356). -/
def fnCode : FnSt → Nat
  | .proofD => 0
  | .proofR => 1
  | .released => 2
  | .demand => 3
  | .discrepant => 4
  | .fault => 5

/-- The value of a function point (R356). -/
def fnValue (x : FnRun) : BitVec 16 :=
  BitVec.ofNat 16 (packFields [(1, x.enable.toNat), (3, fnCode x.st), (12, min 4095 x.c)])

/-- A function needs its proof operation. -/
def fnProving (x : FnRun) : Bool := x.st == .proofD || x.st == .proofR

/-- What a function makes of a channel's entry (R355). -/
def fnChannel (x : FnRun) (demand : Bool) (e : PointEnt) : PointEnt :=
  if x.enable then { e with forced := false, proof := false }
  else { e with value := if demand then 1 else 0, forced := true, valid := false, proof := fnProving x }

/-- The functions' part in the entries of a context (R345, R355, R356). -/
def fnEntries (n : Nat) (L : Lane) (m : Mem) : Mem :=
  (L.cfg.fns.filter fun f => f.ctx == n).foldl (fun m f =>
    let x := tblGetD L.fns f.fn {}
    let m1 := modEnt (modEnt m f.chA (fnChannel x f.demandA)) f.chB (fnChannel x (demandB f))
    modEnt m1 f.point fun e => { e with value := fnValue x, valid := true, proof := fnProving x, forced := false,
                                        subst := false, stale := false, age := 0 }) m

/-- Every function of a context in PROOF_D (R358). -/
def fnsToProof (n : Nat) (L : Lane) : Lane :=
  let fns := (L.cfg.fns.filter fun f => f.ctx == n).foldl
    (fun (t : Tbl FnRun) (f : FnCfg) => tblSet t f.fn (fnProof (tblGetD t f.fn {}))) L.fns
  { L with fns := fns }

/-! ## Published values (R292, R361, R363) -/

/-- A point as its context has published it, its safe value where it has published those (R127, R129, R183, R292). -/
def pubValue (L : Lane) (ctx p : Nat) (safe : BitVec 16) : BitVec 16 :=
  let c := ctxRun L ctx
  if c.safePub then safe else tblGetD c.pub p safe

/-- The permit of a drive as last published (R363, R369). -/
def permitOf (L : Lane) (d : DriveCfg) : Bool := pubValue L d.ctx d.permit 0 != 0

/-- The entry a drive runs under: the one its stop began with until it is STOPPED (R369). -/
def drvCfg (x : DrvRun) (d : DriveCfg) : DriveCfg := x.entryCfg.getD d

/-- The entries the drives of a lane run under: those of its configuration, and those under which stops still end that the
configuration no longer has (R369). -/
def drvList (L : Lane) : List DriveCfg :=
  L.cfg.drives.map (fun d => drvCfg (tblGetD L.drvs d.drv {}) d) ++
    L.drvs.filterMap fun e => if L.cfg.drives.any fun d => d.drv == e.1 then none else e.2.entryCfg

/-- RAMP and STO of a drive (R363): RAMP while it runs and its permit stands, STO in RUN and SS1. -/
def driveOut (L : Lane) (e : DriveCfg) (p : Nat) : Option Bool :=
  let x := tblGetD L.drvs e.drv {}
  if p = e.ramp then some (x.st == .run && permitOf L e && !x.stopReq)
  else if p = e.stoA || p = e.stoB then some (x.st == .run || x.st == .ss1)
  else none

/-- The value of an output point as the next downlink carries it: a drive's own points from context 0, every other one
as published (R292, R361). -/
def outValue (L : Lane) (p : PointRef) : BitVec 16 :=
  match (drvList L).findSome? fun d => driveOut L d p.index with
  | some b => if b then 1 else 0
  | none => pubValue L p.ctx p.index p.subst

/-- A downlink build has told each drive what it sends as RAMP_POINT (R361, R362). -/
def noteRamps (L : Lane) : Lane :=
  { L with drvs := (drvList L).foldl (fun t e =>
      let x := tblGetD t e.drv {}
      tblSet t e.drv { x with rampSent := x.st == .run && permitOf L e && !x.stopReq }) L.drvs }

/-- A restart of a context ends the run of its drives: its permits carry 0 (R369). -/
def stopDrives (n : Nat) (L : Lane) : Lane :=
  { L with drvs := (drvList L).foldl (fun t e =>
      let x := tblGetD t e.drv {}
      if e.ctx = n && x.st = .run then tblSet t e.drv { x with stopReq := true } else t) L.drvs }

/-! ## Supervised drives (R362-R364) -/

/-- Rounds of a feedback time, rounded up; d is the round length in ticks (R363). -/
def fbRounds (e : DriveCfg) (d : Nat) : Nat := (e.fbTime * 10 + d - 1) / d

/-- The envelope at t ticks as a fraction: numerator and denominator in counts/s (R362). -/
def envAt : List (Nat × Nat) → Nat → Int × Nat
  | [], _ => (0, 1)
  | [v], _ => (v.2, 1)
  | v :: w :: r, t =>
    if t < 10 * w.1 then
      ((v.2 : Int) * (10 * w.1 - 10 * v.1 : Int) + ((w.2 : Int) - v.2) * ((t : Int) - 10 * v.1),
        10 * w.1 - 10 * v.1)
    else envAt (w :: r) t

/-- A count breaches the envelope of the round that began t ticks after t0 (R363). -/
def breaches (e : DriveCfg) (count t d : Nat) : Bool :=
  let (num, den) := envAt e.env t
  num * d < ((count : Int) - 1) * 10000 * den

/-- The magnitude of the speed count frozen at a boundary (R362). -/
def speedCount (c : Cfg) (z : Frozen) (e : DriveCfg) : Option Nat :=
  (frozenInput c z e.speed).map fun v => v.toInt.natAbs

/-- A drive leaves RUN, SS1 or STO_WAIT with a cause (R363, R364): 5 to STO_FAULT, others to STO_WAIT; a stop that the
group or context began keeps cause 6. -/
def drvExit (x : DrvRun) (cause : Nat) : DrvRun :=
  if cause = 5 then { x with st := .stoFault, cause := 5, rounds := 0 }
  else { x with st := .stoWait, cause := if x.cause = 6 then 6 else cause, rounds := 0 }

/-- A drive is STOPPED, and the entry of its configuration applies (R363, R369). -/
def drvStopped (permit : Bool) (x : DrvRun) : DrvRun :=
  { x with st := .stopped, rounds := 0, permit0 := !permit, entryCfg := none }

/-- The rounds at standstill and without speed after a boundary in SS1 (R363). -/
def ss1Counts (e : DriveCfg) (v : Option Nat) (d : Nat) (x : DrvRun) : DrvRun :=
  { x with lost := if v.isNone then x.lost + 1 else 0,
           still := if v.any fun n => n * 10000 ≤ e.still * d then x.still + 1 else 0 }

/-- Why a drive leaves SS1 at a boundary `el` ticks after t0, by its counts after it (R363); where several causes hold at one
boundary, the first of the rule's list (DEDUCED, log 141). -/
def ss1Cause (e : DriveCfg) (v : Option Nat) (el d : Nat) (y : DrvRun) : Option Nat :=
  if e.stillRds ≤ y.still then some 1
  else if v.any fun n => breaches e n (el - d) d then some 2
  else if 10 * e.tMax ≤ el then some 3
  else if 2 ≤ y.lost then some 4
  else none

/-- A drive in SS1 at a boundary `el` ticks after t0; one at t0 itself ends no round of the stop (R362, R363). -/
def drvSs1 (e : DriveCfg) (v : Option Nat) (el d : Nat) (x : DrvRun) : DrvRun :=
  if el = 0 then x
  else
    let y := ss1Counts e v d x
    match ss1Cause e v el d y with
    | some c => drvExit y c
    | none => y

/-- A drive enters SS1 (R362, R363, R369): t0 is the boundary at which RAMP's de-energising takes effect, the next one where the
latest build still energised it. -/
def enterSs1 (e : DriveCfg) (now d : Nat) (own : Bool) (x : DrvRun) : DrvRun :=
  { x with st := .ss1, t0 := if x.rampSent then now + d else now, rounds := 0, still := 0, lost := 0,
           cause := if own then 0 else 6, entryCfg := some e, stopReq := false }

/-- A drive in RUN whose permit stands, with its feedbacks (R363). -/
def drvFeed (e : DriveCfg) (a b : Bool) (d : Nat) (x : DrvRun) : DrvRun :=
  let n := x.rounds + 1
  if !x.fbOk then
    if !a && !b then { x with rounds := n, fbOk := true, badA := 0, badB := 0 }
    else if fbRounds e d ≤ n then drvExit x 5
    else { x with rounds := n }
  else
    let y := { x with rounds := n, badA := if a then x.badA + 1 else 0, badB := if b then x.badB + 1 else 0 }
    if fbRounds e d < y.badA || fbRounds e d < y.badB then drvExit y 5 else y

/-- A drive in STO_WAIT, with its feedbacks (R363). -/
def drvWait (e : DriveCfg) (a b permit : Bool) (d : Nat) (x : DrvRun) : DrvRun :=
  let n := x.rounds + 1
  if a && b then drvStopped permit x
  else if fbRounds e d ≤ n then drvExit x 5
  else { x with rounds := n }

/-- A drive at a round boundary under its entry (R363): `now` is group time, `d` the round length in ticks. A permit that the
owning context carries at 0 because it is not running, publishes safe values or has restarted makes cause 6 (R369). -/
def drvRound (L : Lane) (z : Frozen) (now d : Nat) (e : DriveCfg) (x : DrvRun) : DrvRun :=
  let a := frozenBit L.cfg z e.fbA
  let b := frozenBit L.cfg z e.fbB
  let permit := permitOf L e
  let c := ctxRun L e.ctx
  match x.st with
  | .stopped =>
    if x.permit0 && permit && a && b then
      { x with st := .run, cause := 0, rounds := 0, badA := 0, badB := 0, fbOk := false, permit0 := false, rampSent := false }
    else { x with permit0 := x.permit0 || !permit }
  | .run =>
    if !permit || x.stopReq || c.st != .running then
      enterSs1 e now d (c.st == .running && !c.safePub && !x.stopReq) x
    else drvFeed e a b d x
  | .ss1 => drvSs1 e (speedCount L.cfg z e) (now - x.t0) d x
  | .stoWait => drvWait e a b permit d x
  | .stoFault => x

/-- The code of a drive state (R364). -/
def drvCode : DrvSt → Nat
  | .stopped => 0
  | .run => 1
  | .ss1 => 2
  | .stoWait => 3
  | .stoFault => 4

/-- The value of a drive's status point (R364). -/
def drvValue (x : DrvRun) (now : Nat) : BitVec 16 :=
  let t := if x.st = .ss1 then min 1023 ((now - x.t0) / 100) else 0
  BitVec.ofNat 16 (packFields [(3, drvCode x.st), (3, x.cause), (10, t)])

/-- The drives' part in the entries of a context (R364). -/
def drvEntries (n now : Nat) (L : Lane) (m : Mem) : Mem :=
  (L.cfg.drives.filter fun d => d.ctx == n).foldl (fun m d =>
    modEnt m d.status fun e => { e with value := drvValue (tblGetD L.drvs d.drv {}) now, valid := true,
                                        forced := false, subst := false, stale := false, age := 0 }) m

/-- The drives of a lane at a boundary: one evaluated ahead stays, and one that the configuration no longer has is gone once it is
STOPPED (R363, R369). -/
def drvsRound (z : Frozen) (r : DWord) (now d : Nat) (L : Lane) : Tbl DrvRun :=
  (drvList L).foldl (fun (t : Tbl DrvRun) (e : DriveCfg) =>
    let x := tblGetD t e.drv {}
    let y := if x.moved = some r then x else drvRound L z now d e x
    if y.st = .stopped && !(L.cfg.drives.any fun c => c.drv == e.drv) then tblDel t e.drv else tblSet t e.drv y) L.drvs

/-- The functions of a lane at a boundary, but for one evaluated ahead (R345). -/
def fnsRound (z : Frozen) (r : DWord) (g0 d : Nat) (L : Lane) : Tbl FnRun :=
  L.cfg.fns.foldl (fun (t : Tbl FnRun) (f : FnCfg) =>
    let x := tblGetD t f.fn {}
    tblSet t f.fn (if x.moved = some r then { x with entered := 0 } else fnRound L.cfg z f g0 d x)) L.fns

/-- The functions and drives of a lane at the boundary of round r (R345): g0 and now are group time before and at it. -/
def safetyRound (z : Frozen) (r : DWord) (g0 now d : Nat) (L : Lane) : Lane :=
  let L1 := { L with fns := fnsRound z r g0 d L }
  { L1 with drvs := drvsRound z r now d L1 }

/-! ## Events of a change (R354, R363) -/

/-- The FN_FAULT events of a boundary: one for each time a function has entered FAULT (R354). -/
def fnFaultEvents (s : State) (new : Lane) : State :=
  new.cfg.fns.foldl (fun s f =>
    (List.replicate (tblGetD new.fns f.fn {}).entered f).foldl (fun s f =>
      event s bothHubs 0x8004 (some (BitVec.ofNat 32 f.ctx)) 0 0 (leBytes 1 f.ctx ++ leBytes 2 f.fn)) s) s

/-- The CONTEXT event of a drive's change into STO_WAIT or STO_FAULT (R363). -/
def drvEvent (s : State) (ctx drv cause : Nat) : State :=
  event s bothHubs 0x8003 (some (BitVec.ofNat 32 ctx)) 0 0
    (leBytes 1 ctx ++ leBytes 1 ctxCauseDrive ++ leBytes 1 drv ++ leBytes 1 cause)

/-- The CONTEXT events of the drives that entered STO_WAIT or STO_FAULT between two states of a lane (R363). -/
def drvEvents (s : State) (old new : Lane) : State :=
  (drvList old).foldl (fun s e =>
    let x := tblGetD old.drvs e.drv {}
    let y := tblGetD new.drvs e.drv {}
    if (y.st == .stoWait || y.st == .stoFault) && y.st != x.st then drvEvent s e.ctx e.drv y.cause else s) s

/-- The lanes that run contexts: the seated ones and a joiner that has caught up (R86, R107), but for one the debugger
has halted (R55). -/
def runLanes (s : State) : List LaneId :=
  allLanes.filter fun l =>
    (isSeated s l || s.grp.join.any fun j => 8 ≤ j.step && j.joiner == l) && !(lane s l).dbg.halted

end Sys2Proof.Machine
end

