-- ==== Sys2Proof/Machine/Phase.lean ====
section
/-! DEFINITION. Phase I and phase O of a cycle in a lane (R109, R115, R116, R124-R137). -/

namespace Sys2Proof.Machine

open Sys2Proof

/-! ## The executive's reads and writes -/

/-- n bytes as the lane's M sees them. -/
def laneBytes (L : Lane) (a n : Nat) : List Byte := (List.range n).map fun k => laneByte L (a + k)

/-- The executive's copy of an entry counts in class 5 on both cores: of the inputs at phase I, of the outputs at phase O
(R447). -/
def countCopies (n : Nat) (out : Bool) (L : Lane) : Lane :=
  ((ctxPoints L.cfg n).filter fun p => p.out == out).foldl (fun L p =>
    let e : CtrEv := { cls := 5, n := 1, priv := 2, addr := some (BitVec.ofNat 32 (pointAddr p.index)) }
    laneCount (laneCount L 0 e) 1 e) L

/-! ## Actions stamped for a cycle (R19, R124, R126) -/

/-- The context an action concerns. -/
def actCtx : ActKind → Option Nat
  | .request c _ _ => some c
  | .ctxStart c => some c
  | .ctxStop c => some c
  | .ctxRestart c => some c
  | .change c _ => some c
  | .service _ _ _ _ _ => none
  | .tileReset _ => none
  | .driveReset _ => none
  | .setting _ _ => none
  | .factory => none

/-- The action is a host request. -/
def isRequest (a : Action) : Bool := match a.kind with
  | .request _ _ _ => true
  | _ => false

/-- Action a comes before action b: the earlier slot, H0's before H1's, then stamp order (R19). -/
def actBefore (a b : Action) : Bool :=
  a.slot.toNat < b.slot.toNat || (a.slot == b.slot &&
    (hubNum a.hub < hubNum b.hub || (a.hub == b.hub && a.order < b.order)))

/-- An action put in its place. -/
def insertAct (a : Action) : List Action → List Action
  | [] => [a]
  | b :: r => if actBefore b a then b :: insertAct a r else a :: b :: r

/-- Actions in the order in which the lanes apply them. -/
def sortActs (as : List Action) : List Action := as.foldr insertAct []

/-! ## Values (R132-R135) -/

/-- The entry of table 16 of an index. -/
def tunable? (c : Cfg) (n i : Nat) : Option Tunable := c.tunables.find? fun t => t.ctx == n && t.index == i

/-- A value lies within an entry's bounds, inclusive. -/
def boundsOk (t : Tunable) (v : Word) : Bool :=
  if t.signed then t.lower.toInt ≤ v.toInt && v.toInt ≤ t.upper.toInt
  else t.lower.toNat ≤ v.toNat && v.toNat ≤ t.upper.toNat

/-- One change is permitted (R132, R133, R196). -/
def changeOk (c : Cfg) (n : Nat) (x : Nat × Word) : Bool :=
  match ctxCfg? c n, tunable? c n x.1 with
  | some e, some t => !(e.vital && t.const) && boundsOk t x.2
  | _, _ => false

/-- A value-change command at phase I: all of it or none (R133). -/
def applyChange (L : Lane) (n : Nat) (chg : List (Nat × Word)) : Lane :=
  match ctxCfg? L.cfg n with
  | none => L
  | some x =>
    chg.foldl (fun L c => match tunable? L.cfg n c.1 with
      | some t => poke L (x.base + t.off) (leBytes 4 c.2.toNat)
      | none => L) L

/-! ## States (R129, R130) -/

/-- The context's points at their Reset content (R288). -/
def resetCtxPoints (n : Nat) (L : Lane) : Lane :=
  let ps := ctxPoints L.cfg n
  storeEnts (ps.map (·.index)) (resetPoints [] ps) L

/-- A restart (R130, R358, R369): instance data from the image, points at Reset content, functions in PROOF_D, drives in RUN on
their way to SS1, safe outputs. -/
def restartCtx (n : Nat) (L : Lane) : Lane :=
  match ctxCfg? L.cfg n with
  | none => L
  | some x =>
    let init := sectionCells (activeBank L.nv).data 3 0x200000
    let L1 := poke (stopDrives n (dropTasks L n)) x.base (memBytes init x.base x.size)
    modCtx (fnsToProof n (resetCtxPoints n L1)) n fun c =>
      { c with st := .running, fresh := false, lateRun := 0, fault := 0, busy := false, owes := false,
               lateNow := false, safePub := true, pub := [] }

/-- CONTEXT_START of a STOPPED context: instance data kept (R129). -/
def startCtx (n : Nat) (L : Lane) : Lane :=
  if (ctxRun L n).st = .stopped then
    modCtx (resetCtxPoints n L) n fun c => { c with st := .running }
  else L

/-- CONTEXT_STOP of a non-vital context that is RUNNING, or would be from the first vital cycle on (R129, R130). -/
def stopCtx (n : Nat) (L : Lane) : Lane :=
  let c := ctxRun L n
  if (c.st = .running || c.fresh) && !((ctxCfg? L.cfg n).any fun x => x.vital) then
    modCtx (dropTasks L n) n fun c =>
      { c with st := .stopped, fresh := false, busy := false, owes := false, lateNow := false, safePub := true }
  else L

/-- An action other than a request at phase I; the flag tells a refused change (R133). -/
def applyAct (x : Lane × List Action) (a : Action) : Lane × List Action :=
  match a.kind with
  | .ctxStart n => (startCtx n x.1, x.2)
  | .ctxStop n => (stopCtx n x.1, x.2)
  | .ctxRestart n => (restartCtx n x.1, x.2)
  | .change n chg => if chg.all (changeOk x.1.cfg n) then (applyChange x.1 n chg, x.2) else (x.1, x.2 ++ [a])
  | _ => x

/-! ## Requests (R124-R126, R482) -/

/-- The configured channel of a request. -/
def reqChan? (c : Cfg) (a : Action) : Option ReqChan := match a.kind with
  | .request n ch _ => c.reqChans.find? fun r => r.ctx == n && r.chan == ch
  | _ => none

/-- The channel of a request action. -/
def actChan (a : Action) : Nat := match a.kind with
  | .request _ ch _ => ch
  | _ => 0

/-- Requests sorted out at phase I: delivered, carried over, discarded for want of their channel. -/
structure ReqSplit where
  delivered : List Action := []
  held      : List Action := []
  discarded : List Action := []
  deriving DecidableEq, Repr

/-- One request: delivered while its channel has a place, else carried over (R126). -/
def splitReq (c : Cfg) (x : ReqSplit) (a : Action) : ReqSplit :=
  match reqChan? c a with
  | none => { x with discarded := x.discarded ++ [a] }
  | some r =>
    if (x.delivered.filter fun b => actChan b == r.chan).length < r.depth then { x with delivered := x.delivered ++ [a] }
    else { x with held := x.held ++ [a] }

/-- An entry of the request buffer (R124). -/
def reqEntry (a : Action) : List Byte :=
  match a.kind with
  | .request _ _ p =>
    leBytes 4 a.handle.toNat ++ leBytes 4 a.tag.toNat ++ leBytes 8 a.slot.toNat ++ leBytes 2 p.length ++
      leBytes 1 (hubNum a.hub) ++ [0] ++ sliceBytes p 0 64
  | _ => []

/-- The request buffer filled (R124). -/
def fillRequests (L : Lane) (x : CtxCfg) (rs : List Action) : Lane :=
  match x.reqBuf with
  | none => L
  | some off => poke L (x.base + off) (leBytes 4 rs.length ++ rs.flatMap reqEntry)

/-! ## Phase I (R115, R116, R137) -/

/-- The exchange blocks a context reads (R109). -/
def takeBlocks (n : Nat) (x : CtxCfg) (L : Lane) : Lane :=
  match x.xIn with
  | none => L
  | some off => (L.cfg.xblocks.filter fun b => b.kind == 2 && b.ctx == n).foldl (fun L b =>
      match tblGet (ctxRun L b.pub).blocks b.blk with
      | some bs => poke L (x.base + off + b.off) (sliceBytes bs 0 b.len)
      | none => L) L

/-- The cyclic task of a cycle starts (R118, R140). -/
def startTask (x : CtxCfg) (idx now : DWord) (L : Lane) : Lane :=
  let L1 := modCtx L x.num fun c => { c with busy := true, owes := true, lateNow := false, cyc := idx, now := now }
  addTask L1 { ctx := x.num, pc := BitVec.ofNat 32 (typeCode L.mem x.rootType), ib := BitVec.ofNat 32 x.base,
               now := now, cyc := idx }

/-- What a phase I leaves: the lane, the requests discarded and the changes refused. -/
structure PhaseRes where
  lane      : Lane
  discarded : List Action := []
  refused   : List Action := []

/-- The start of a cycle is skipped (R126, R477): its actions wait. -/
def skipCycle (n : Nat) (acts : List Action) (L : Lane) : Lane := modCtx L n fun c => { c with held := c.held ++ acts }

/-- Phase I of a context's cycle (R115, R126, R137): actions other than requests, the frozen view, the exchange blocks,
the requests, and the task of a RUNNING context. -/
def phaseRun (z : Frozen) (x : CtxCfg) (idx now : DWord) (acts : List Action) (L : Lane) : PhaseRes :=
  let n := x.num
  let all := sortActs ((ctxRun L n).held ++ acts)
  let (L1, refused) := (all.filter fun a => !isRequest a).foldl applyAct (L, [])
  let L2 := modCtx L1 n fun c => { c with held := [] }
  let m := drvEntries n now.toNat L2 (fnEntries n L2 (freezeInputs z n L2 (flushStores L2).mem))
  let L3 := countCopies n false (storeEnts ((ctxPoints L2.cfg n).map (·.index)).eraseDups m L2)
  let L4 := takeBlocks n x L3
  let reqs := all.filter isRequest
  if (ctxRun L4 n).st = .running then
    let q := reqs.foldl (splitReq L4.cfg) {}
    let L5 := modCtx (fillRequests L4 x q.delivered) n fun c => { c with held := q.held }
    { lane := startTask x idx now L5, discarded := q.discarded, refused := refused }
  else { lane := L4, discarded := reqs, refused := refused }

/-- A context at a cycle start: its phase I, or the skip of a late cycle or of one that would straddle an activation. -/
def phaseI (z : Frozen) (x : CtxCfg) (idx now : DWord) (straddles : Bool) (acts : List Action) (L : Lane) : PhaseRes :=
  let c := ctxRun L x.num
  if straddles || (c.st == .running && (c.lateNow || c.busy)) then { lane := skipCycle x.num acts L }
  else phaseRun z x idx now acts L

/-! ## Phase O (R115, R117, R126-R128) -/

/-- The module holds a tile output off as the latest snapshot shows (R338). -/
def outHeld (L : Lane) (p : Nat) : Bool :=
  match chanOfPoint L.cfg p with
  | none => false
  | some k => ((if k < 16 then L.snap0 else L.snap1).bind fun z => z.chans[k % 16]?).any
      (heldOff ((L.cfg.chans[k]?).elim 0 (·.word)))

/-- The status bits of a context's output entries (R289): VALID for published values, FORCED_SAFE for safe ones. -/
def markOutputs (n : Nat) (valid : Bool) (L : Lane) : Lane :=
  (ctxOutputs L.cfg n).foldl (fun L p =>
    let e := entOf (laneWord L (pointAddr p.index))
    let e1 := { e with valid := valid, forced := !valid || outHeld L p.index }
    poke L (pointAddr p.index + 1) [(entWord e1).extractLsb' 8 8]) L

/-- The values of a context's output entries. -/
def outputVals (n : Nat) (L : Lane) : Tbl (BitVec 16) :=
  (ctxOutputs L.cfg n).foldl (fun t p => tblSet t p.index ((laneWord L (pointAddr p.index)).extractLsb' 16 16)) []

/-- The exchange blocks a context publishes (R109). -/
def outBlocks (n : Nat) (L : Lane) : Tbl (List Byte) :=
  match (ctxCfg? L.cfg n).bind fun x => x.xOut.map fun o => x.base + o with
  | none => []
  | some a => (L.cfg.xblocks.filter fun b => b.kind == 1 && b.ctx == n).foldl
      (fun t b => tblSet t b.blk (laneBytes L (a + b.off) b.len)) []

/-- The context publishes (R117, R127): LATE_RUN goes to 0 when it is on time. Safe outputs last until the first on-time
publication; R130 says so of a restart, and the model takes it for every context that begins, by CONTEXT_START or at the
first vital cycle, too (DESIGN CHOICE, log 131). -/
def publishCtx (n : Nat) (L : Lane) : Lane :=
  let c := ctxRun L n
  let L1 := countCopies n true (markOutputs n (!(c.safePub && c.lateNow)) L)
  modCtx L1 n fun c =>
    { c with pub := outputVals n L1, blocks := outBlocks n L1, owes := false,
             safePub := c.safePub && c.lateNow, lateRun := if c.lateNow then c.lateRun else 0, lateNow := false }

/-- The context's tasks have missed one more output point and work toward the next (R118, R126). -/
def lateTasks (n : Nat) (L : Lane) : Lane :=
  let f (t : Task) : Task := if t.ctx = n && t.mark.isNone then { t with late := t.late + 1 } else t
  dispatchTasks { L with cur := L.cur.map f, susp := L.susp.map f }

/-- A late event (R126, R127); the second one of a vital context ends in SAFE_OVERRUN. -/
def lateCtx (n : Nat) (vital : Bool) (L : Lane) : Lane :=
  let L1 := modCtx L n fun c =>
    { c with lateRun := min 2 (c.lateRun + 1), lateCount := min 65535 (c.lateCount + 1), lateNow := true }
  let L1 := lateTasks n L1
  if vital && (ctxRun L1 n).lateRun = 2 then
    modCtx (markOutputs n false (dropTasks L1 n)) n fun c =>
      { c with st := .safeOverrun, busy := false, owes := false, lateNow := false, safePub := true }
  else L1

/-- Phase O of a context in a lane; one that is not RUNNING publishes its safe values (R117, R127, R129, R183). -/
def phaseO (n : Nat) (vital : Bool) (L : Lane) : Lane :=
  let c := ctxRun L n
  if c.st ≠ .running then modCtx (markOutputs n false L) n fun c => { c with safePub := true, owes := false }
  else if !c.owes then L
  else if c.busy then lateCtx n vital L
  else publishCtx n L

end Sys2Proof.Machine
end

