-- ==== Sys2Proof/Machine/Build.lean ====
section
/-! DEFINITION. What leaves the lanes: contributions (R72, R113), station telegrams with their shares (R234-R237, R284,
R285, R292, R296), grants (R245-R251), gate command frames (R312) and signal mappings (R434, R435). -/

namespace Sys2Proof.Machine

open Sys2Proof

/-! ## Keys and codes -/

/-- The seat key of a seat (R69). -/
def seatKey (c : Cfg) (st : SeatId) : DWord := (c.seatKeys[seatNum st - 1]?).getD 0

/-- The segment number, 1 or 2, of a station address (R221). -/
def segOf (addr : Nat) : Nat := if addr < 2048 then 1 else 2

/-- The six ROUND bytes of a frame (R228). -/
def roundBytes (r : DWord) : List Byte := beBytes 6 (r.toNat % 2 ^ 48)

/-- A telegram's sub-header (R234). -/
def subHeader (addr len kind : Nat) (sq : Word) : List Byte :=
  beBytes 2 addr ++ beBytes 1 len ++ beBytes 1 kind ++ beBytes 4 sq.toNat

/-- A seat's share for a telegram (R240-R242). -/
def shareOf (c : Cfg) (st : SeatId) (addr kind : Nat) (sq : Word) (round : DWord) (payload : List Byte) : Word :=
  crc32Fold (seatKey c st) (foldWord addr (segOf addr) (0x10 + seatNum st)) sq
    (pad64 (subHeader addr payload.length kind sq ++ payload ++ roundBytes round))

/-! ## DATA payloads (R284, R285, R292, R300) -/

/-- A byte of bits from bit 0. -/
def bitByte (bs : List Bool) : Byte :=
  BitVec.ofNat 8 ((bs.zipIdx.map fun x => if x.1 then 2 ^ x.2 else 0).foldl (· + ·) 0)

/-- A bit area, 8 bits to a byte from bit 0. -/
def bitArea (bs : List Bool) : List Byte := (List.range (bitBytes bs.length)).map fun k => bitByte ((bs.drop (8 * k)).take 8)

/-- A service request as the downlink carries it (R300). -/
def svcArea (v : SvcSt) (len : Nat) : List Byte :=
  match v.since, v.queue.head? with
  | some _, some q =>
    sliceBytes (leBytes 1 (if q.write then 2 else 1) ++ leBytes 1 v.sq.toNat ++ beBytes 2 q.param.toNat ++
      leBytes 1 q.len ++ [0, 0, 0] ++ (if q.write then q.data else [])) 0 len
  | _, _ => List.replicate len 0

/-- The outputs of a station's context are its safe values for the field: the context is not RUNNING, or a vital station
in BENCH (R285, R516). -/
def stnSafe (L : Lane) (bench : Bool) (x : StationCfg) : Bool :=
  ((ctxRun L x.ctx).st != .running && (ctxRun L x.ctx).safePub) || (bench && x.vital)

/-- The value of an output point of a station in the DATA payload. -/
def stnOutVal (L : Lane) (bench : Bool) (x : StationCfg) (p : PointCfg) : BitVec 16 :=
  if bench && x.vital then p.subst else outValue L { index := p.index, ctx := x.ctx, out := true, subst := p.subst }

/-- The DATA payload of a station entry (R284, R285). -/
def dataPayload (L : Lane) (bench degraded : Bool) (v : SvcSt) (x : StationCfg) : List Byte :=
  let ps := outPoints x
  let bits := bitArea ((ps.filter fun p => !p.word).map fun p => (stnOutVal L bench x p).getLsbD 0)
  let words := (ps.filter fun p => p.word).flatMap fun p => beBytes 2 (stnOutVal L bench x p).toNat
  let hdr : List Byte := [1, BitVec.ofNat 8 ((stnSafe L bench x).toNat + 2 * degraded.toNat), 0, 0]
  let area := sliceBytes (hdr ++ bits) 0 (wordOff 4 (ps.filter fun p => !p.word).length) ++ words
  sliceBytes (sliceBytes area 0 (dlSvcOff x) ++ svcArea v x.svcLen) 0 x.dlLen

/-- The payload of a granted station without an entry (R287). -/
def barePayload (degraded : Bool) : List Byte := [1, BitVec.ofNat 8 (2 * degraded.toNat), 0, 0, 0, 0, 0, 0]

/-- The payloads a lane builds for a round, in address order of the entries (R236, R292). -/
def payloadsOf (g : Group) (bench : Bool) (L : Lane) : List (Nat × List Byte) :=
  let deg := g.gst == .degraded
  (L.cfg.stations.map fun x => (x.addr, dataPayload L bench deg (tblGetD g.svc x.addr {}) x)) ++
    (g.grants.filter fun t => !L.cfg.stations.any fun x => x.addr == t.addr).map fun t => (t.addr, barePayload deg)

/-! ## Gate command frames (R312) -/

/-- The code of a gate command frame (R312, R384): the lanes compute it, and the tile's logic side checks it. Every use of the
module keeps the effective length at 64 bytes or more (R389), so the frame's bytes are padded. -/
def gateCode (t : TileId) (f : GateFrame) : Word :=
  crc32Fold 0 (foldWord (tileNum t) 0 (0x50 + seatNum f.seat)) (f.round.setWidth 32)
    (pad64 (leBytes 1 (seatNum f.seat) ++ leBytes 8 f.round.toNat ++ leBytes 2 f.upper.toNat ++ leBytes 2 f.lower.toNat ++
      leBytes 1 f.cuffs.toNat))

/-- The point that drives an output channel: its own, or that of the even channel it is joined to (R327). -/
def drivePoint (c : Cfg) (k : Nat) : Option PointRef :=
  let own := (c.chans[k]?).bind fun x => x.p0.map fun p => ({ index := p, ctx := x.ctx, out := true, subst := 0 } : PointRef)
  if k % 2 = 1 then
    match c.chans[k - 1]? with
    | some e =>
      if e.word.getLsbD 2 then e.p0.map fun p => { index := p, ctx := e.ctx, out := true, subst := 0 } else own
    | none => own
  else own

/-- The seats hold a channel off for what its status word shows (R331, R334, R336, R338); an output is in THRESHOLD only where
its tile's calibration records have failed (R512). -/
def seatHolds (w : DWord) (c : SnapChan) : Bool :=
  [4, 5, 7, 8, 10, 11].any c.conds.contains || (w.getLsbD 3 && c.conds.contains 9)

/-- A channel of the latest snapshot a lane holds. -/
def seenChan (L : Lane) (k : Nat) : SnapChan :=
  ((if k < 16 then L.snap0 else L.snap1).bind fun z => z.chans[k % 16]?).getD {}

/-- A seat's command for an output channel (R312, R331, R516). -/
def chanCmd (L : Lane) (bench : Bool) (k : Nat) : Bool :=
  match L.cfg.chans[k]? with
  | none => false
  | some x =>
    chMode x.word == 2 && !(bench && x.word.getLsbD 3) && !seatHolds x.word (seenChan L k) &&
      (drivePoint L.cfg k).any fun p => outValue L p != 0

/-- A seat's command for a cuff (R333, R334): closed from the first vital cycle in a coupler-mode group with an output
channel, unless an overcurrent or R334 holds it open. -/
def cuffCmd (s : State) (L : Lane) (t : TileId) (g : Nat) : Bool :=
  let q := duoGet (tile s t).cuffs (g == 1)
  let w := match t with
    | .t0 => L.cfg.tileWords.a
    | .t1 => L.cfg.tileWords.b
  s.grp.firstVital && !w.getLsbD 0 && !q.overcur && !q.forGood &&
    (List.range 8).any fun k => (L.cfg.chans[16 * tileNum t + 8 * g + k]?).any fun x => chMode x.word == 2

/-- A seat's gate command frame for a tile (R312, R313): sent in the round before `round`, it carries the count of the round in
which it is sent, and its commands hold from the strobe of `round` on. -/
def gateFrame (s : State) (L : Lane) (st : SeatId) (t : TileId) (round : DWord) : GateFrame :=
  let bench := s.mod.op == .bench
  let on := ((List.range 16).map fun k => if chanCmd L bench (16 * tileNum t + k) then 2 ^ k else 0).foldl (· + ·) 0
  let f : GateFrame :=
    { seat := st, round := round - 1, upper := BitVec.ofNat 16 on, lower := BitVec.ofNat 16 on,
      cuffs := BitVec.ofNat 2 ((cuffCmd s L t 0).toNat + 2 * (cuffCmd s L t 1).toNat), code := 0 }
  { f with code := gateCode t f }

/-! ## Contributions (R72, R113) -/

/-- The bytes of a contribution under its code (R72; the layout is the model's, log 33). -/
def contribBytes (cb : Contribution) : List Byte :=
  leBytes 8 cb.cyc.toNat ++ leBytes 1 cb.ctx ++ leBytes 1 (seatNum cb.seat) ++ leBytes 8 cb.sig.toNat ++
    cb.words.flatMap fun w => leBytes 2 w.1 ++ leBytes 4 w.2.toNat

/-- The code of a contribution (R72, R384), over its bytes padded to the 64 that R389 asks of every use. -/
def contribCode (c : Cfg) (cb : Contribution) : Word :=
  crc32Fold (seatKey c cb.seat) (foldWord cb.ctx 0 (0x40 + seatNum cb.seat)) (cb.cyc.setWidth 32) (pad64 (contribBytes cb))

/-- The destination of an output point in a contribution: its station, 0xFFFF for a tile channel. -/
def destOf (c : Cfg) (p : Nat) : Nat :=
  ((c.stations.find? fun x => x.points.any fun r => r.index == p).map (·.addr)).getD 0xFFFF

/-- The outbound words of a vital context's cycle. -/
def ctxWords (n : Nat) (L : Lane) : List (Nat × Word) :=
  (ctxOutputs L.cfg n).map fun p => (destOf L.cfg p.index, (pubValue L n p.index p.subst).setWidth 32)

/-- Bytes as 32-bit words, low byte first; a rest of fewer is filled with zeros. -/
def bytesWords : List Byte → List Word
  | b0 :: b1 :: b2 :: b3 :: r => BitVec.ofNat 32 (leNat [b0, b1, b2, b3]) :: bytesWords r
  | [] => []
  | r => [BitVec.ofNat 32 (leNat r)]

/-- The state of the two-channel functions of a context, as its cycle result folds it (R345). -/
def fnBytes (n : Nat) (L : Lane) : List Byte :=
  (L.cfg.fns.filter fun f => f.ctx == n).flatMap fun f =>
    let x := tblGetD L.fns f.fn {}
    leBytes 2 f.fn ++ leBytes 1 (fnCode x.st) ++ leBytes 2 x.c ++ leBytes 1 x.enable.toNat

/-- The cycle result signature (R70, R72, R345): the outbound words, the seat map, the schedule position and the state of the
context's two-channel functions (log 33). -/
def cycleResult (m : SeatMap) (L : Lane) (n : Nat) (cyc : DWord) (words : List (Nat × Word)) : DWord :=
  let c := ctxRun L n
  Config.cycleSig ((words.flatMap fun w => leBytes 2 w.1 ++ leBytes 4 w.2.toNat) ++
    leBytes 1 (laneField m.s1) ++ leBytes 1 (laneField m.s2) ++ leBytes 1 (laneField m.s3) ++
    leBytes 1 n ++ leBytes 8 cyc.toNat ++ leBytes 1 (ctxStCode c.st) ++ leBytes 8 c.cyc.toNat ++ leBytes 1 c.lateRun ++
    fnBytes n L)

/-- The contribution of a lane, over its own seat map (R70). -/
def makeContrib (m : SeatMap) (L : Lane) (st : SeatId) (n : Nat) (cyc : DWord) (words : List (Nat × Word)) :
    Contribution :=
  let cb : Contribution := { cyc := cyc, ctx := n, seat := st, sig := cycleResult m L n cyc words, words := words, code := 0 }
  { cb with code := contribCode L.cfg cb }

/-- A message of the same sender and context, replaced by the next contribution. -/
def oldContrib (l : LaneId) (n : Nat) : StraitMsg → Bool
  | .contribution src cb => src == l && cb.ctx == n
  | _ => false

/-- A contribution kept by its lane for the comparison, and on its way to the other seats. -/
def sendContrib (s : State) (l : LaneId) (cb : Contribution) : State :=
  let s1 := modLane s l fun L =>
    { L with own := (L.own.filter fun x => !(x.ctx == cb.ctx && x.cyc.toNat + 1 < cb.cyc.toNat) &&
                                           !(x.ctx == cb.ctx && x.cyc == cb.cyc)) ++ [cb] }
  modGrp s1 fun g => sendMsg { g with transit := g.transit.filter fun m => !oldContrib l cb.ctx m } (.contribution l cb)

/-- The outbound words of a contribution: it goes to each other seat (R39, R72). -/
def contribItems (cb : Contribution) : List (Nat × DWord) :=
  (allSeats.filter (· != cb.seat)).flatMap fun x =>
    (bytesWords (contribBytes cb) ++ [cb.code]).map (outItem (seatNum x))

/-! ## Signal mappings (R434, R435) -/

/-- A point's entry as its lane last published or froze it (R434): of an output the published value, whatever the context has
stored since. -/
def shownEntry (L : Lane) (p : Nat) : Word :=
  let e := laneWord L (pointAddr p)
  match (cfgPoints L.cfg).find? fun x => x.index == p && x.out with
  | some x => outValue L x ++ e.extractLsb' 0 16
  | none => e

/-- The entry of a point on which at least two seats agree, or both in DEGRADED (R434). -/
def agreedEntry (s : State) (p : Nat) : Option Word :=
  let vs := (seated s).map fun l => shownEntry (lane s l) p
  vs.find? fun v => 2 ≤ (vs.filter (· == v)).length

/-- The slot of a publication (R435). -/
def mapSlot (s : State) (n : Nat) (cyc : DWord) (round : Nat) (m : MapSt) (pno : Nat) : List Byte :=
  let st := ((seated s).head?).elim 0 fun l => ctxStCode (ctxRun (lane s l) n).st
  let entries := m.points.flatMap fun p =>
    let own := ((seated s).head?).bind fun l => pointInfo? (lane s l).cfg p
    let v := if own.any fun i => i.ctx == n then (agreedEntry s p).getD (Config.freeWord s.free) else 0
    leBytes 4 v.toNat
  let size := 64 * ((4 * m.points.length + 63) / 64)
  leBytes 8 pno ++ leBytes 8 cyc.toNat ++ leBytes 8 round ++ leBytes 2 m.points.length ++ leBytes 1 n ++
    leBytes 1 (packFields [(1, (s.grp.gst == .degraded).toNat), (3, st), (1, m.adopted.toNat)]) ++
    leBytes 4 (min 0xFFFFFFFF m.skipped) ++ List.replicate 32 0 ++ sliceBytes entries 0 size ++
    List.replicate 56 0 ++ leBytes 8 pno

/-- A mapping publishes at an output point of its context at a moment in µs (R434). -/
def mapDue (n nowUs : Nat) (H : Hub) (m : MapSt) : Bool :=
  m.ctx == n && m.active && !(m.lastAt.any fun t => nowUs < t + m.minUs) && hubServes H && ringsOn H

/-- A mapping with its next publication written: the slot's earlier content is kept beside it (R435, R446). -/
def mapWrite (nowUs : Nat) (slot : List Byte) (m : MapSt) : MapSt :=
  let m1 := { m with p := m.p + 1, lastAt := some nowUs, skipped := 0 }
  if m1.p % 2 = 0 then { m1 with under := m.slot0, slot0 := slot } else { m1 with under := m.slot1, slot1 := slot }

/-- The bursts of the latest publication of a mapping: S bytes of the slot, header first (R431, R435). -/
def slotBursts (m : MapSt) : List (Nat × Nat) :=
  let size := 128 + 64 * ((4 * m.points.length + 63) / 64)
  cutBursts maxWrite (size / 64 + 2) (m.base.toNat + size * (m.p % 2)) size

/-- One mapping at an output point: published, or skipped and counted for want of an item of the image copy class; that the link
holds the class's earlier bursts is a free choice for each mapping (R434, log 34). -/
def publishMap (n : Nat) (cyc : DWord) (round nowUs : Nat) (h : HubId) (s : State) (key : Nat) : State :=
  match tblGet (hub s h).maps key with
  | none => s
  | some m =>
    if !mapDue n nowUs (hub s h) m then s
    else if !itemFree s h .imageCopy || Config.freeBit s.free then
      useFree (modHub s h fun H =>
        { H with maps := tblSet H.maps key { m with skipped := m.skipped + 1 },
                 counts := { H.counts with mapSkip := satInc H.counts.mapSkip } })
    else
      let m1 := mapWrite nowUs (mapSlot s n cyc round m (m.p + 1)) m
      useFree (modHub s h fun H => writeBursts .imageCopy (slotBursts m1) { H with maps := tblSet H.maps key m1 })

/-- The mappings of both hubs at an output point. -/
def publishMaps (s : State) (n : Nat) (cyc : DWord) (round nowUs : Nat) : State :=
  bothHubs.foldl (fun s h => ((hub s h).maps.map (·.1)).foldl (publishMap n cyc round nowUs h) s) s

/-! ## OUTPUT_POINT (R115, R126-R128, R434) -/

/-- The seat map a joiner brings about at its seating (R68, R88). -/
def joinMap (s : State) (j : Join) : SeatMap :=
  let ls := allLanes.filter fun l => (isSeated s l && j.leaver != some l) || l == j.joiner
  canonical ls

/-- The lanes that send contributions, with their seats: the seated ones, and a joiner in its shadow cycle with the seat
it will take (R72, R87), but for a halted one (R55). -/
def contributors (s : State) : List (LaneId × SeatId) :=
  (((seated s).filterMap fun l => (seatOfLane s l).map fun st => (l, st)) ++
    match s.grp.join with
    | some j => if j.step = 9 then ((seatOf (joinMap s j) j.joiner).map fun st => (j.joiner, st)).toList else []
    | none => []).filter fun x => !(lane s x.1).dbg.halted

/-- The group runs: formed and not in SAFE. -/
def groupRuns (g : Group) : Bool := g.gst == .full || g.gst == .noSpare || g.gst == .degraded

/-- A lane has a late event in a context at its output point: phase L of the cycle that owes outputs has not ended (R126). -/
def isLate (s0 : State) (n : Nat) (l : LaneId) : Bool :=
  let c := ctxRun (lane s0 l) n
  c.st == .running && c.owes && c.busy

/-- Events of an output point: each lane decides lateness for itself, and a late event or an overrun in any of them raises the
context's event, once for the group (R128, R129). -/
def lateEvents (ls : List LaneId) (n : Nat) (s0 s1 : State) : State :=
  let s2 := match ls.find? (isLate s0 n) with
    | some l => ctxEvent s1 n ctxCauseLate (ctxRun (lane s1 l) n).lateRun
    | none => s1
  if ls.any fun l => (ctxRun (lane s0 l) n).st == .running && (ctxRun (lane s1 l) n).st == .safeOverrun then
    ctxEvent s2 n ctxCauseState 4
  else s2

/-- Two contributions agree (R75). -/
def cbAgrees (a b : Contribution) : Bool := a.ctx == b.ctx && a.cyc == b.cyc && a.sig == b.sig && a.words == b.words

/-- The joiner agrees in a contribution of its shadow cycle: with every seat in a fault join, else with the majority of
the three (R87). -/
def shadowAgrees (kind : JoinKind) (mine : Contribution) (seats : List Contribution) : Bool :=
  match kind with
  | .fault => seats.all (cbAgrees mine)
  | _ => 2 ≤ (seats.filter (cbAgrees mine)).length

/-- The contributions of a vital context's cycle, each sent once the window that holds it has compared equal (R41), and what
they say of a joiner in its shadow cycle (R72, R87). -/
def sendContribs (s : State) (n : Nat) (cyc : DWord) (words : State → Lane → SeatId → List (Nat × Word)) : State :=
  let cbs := (contributors s).map fun x =>
    let L := lane s x.1
    (x.1, makeContrib L.map L x.2 n cyc (words s L x.2))
  let s0 := cbs.foldl (fun s x => signWords x.1 (contribItems x.2) s) s
  let s1 := (cbs.filter fun x => !(lane s0 x.1).fenced).foldl (fun s x => sendContrib s x.1 x.2) s0
  match s1.grp.join with
  | none => s1
  | some j =>
    match cbs.find? fun x => x.1 == j.joiner with
    | none => s1
    | some (_, mine) =>
      let seats := (cbs.filter fun x => x.1 != j.joiner).map (·.2)
      if shadowAgrees j.kind mine seats then s1
      else modGrp s1 fun g => { g with join := some { j with shadowOk := false } }

/-- Context 0 at an output point: phase O ends the windows of the lanes (R40). In an image without vital contexts each lane's
contribution over what it has built for the next round goes out (R113); one that builds later sends it then. -/
def execPoint (s : State) : State :=
  let s1 := (runLanes s).foldl (fun s l => endWindow l s) s
  if (longestVital s.grp.cfg).isNone then
    ((contributors s1).filter fun x => !(lane s1 x.1).fenced).foldl (fun s x =>
      ((lane s x.1).own.filter fun c => c.ctx == 0 && c.cyc == s.grp.round).foldl
        (fun s c => sendOut x.1 (contribItems c) (fun s => sendContrib s x.1 c) s) s) s1
  else s1

/-- OUTPUT_POINT of a context: the output point of the cycle that ends at the next boundary (R115, R126). Phase O ends the
windows of the lanes (R40). -/
def outputPoint (n : Nat) (s : State) : State :=
  let r := s.grp.round.toNat
  if !groupRuns s.grp || !s.grp.firstBoundary then s
  else if n = 0 then execPoint s
  else match ctxCfg? s.grp.cfg n with
    | none => s
    | some x =>
      if startsAt x (r + 1) && x.offset + periodRounds x.period ≤ r + 1 then
        let idx := BitVec.ofNat 64 (cycleIndex x (r + 1) - 1)
        let ls := runLanes s
        let s1 := stageExec s (modLanes s ls fun _ L => phaseO n x.vital L)
        let s2 := lateEvents ls n s s1
        let s3 := if x.vital then sendContribs s2 n idx fun _ L _ => ctxWords n L else s2
        let rest := ls.filter fun l => !(x.vital && (contributors s2).any fun y => y.1 == l)
        let s4 := rest.foldl (fun s l => endWindow l s) s3
        let nowUs := (s.grp.groupTime.toNat + roundTicks s) * 100 - s.grp.cfg.outputLead
        publishMaps s4 n idx (cycleRound x idx.toNat) nowUs
      else s

/-- OUTPUT_POINT (R115, R126). -/
def execOutputPoint (ctx : Nat) (s : State) : Host.Outcome State Fault Refusal := .next (whenOn s (outputPoint ctx))

/-! ## Grants (R245-R251) -/

/-- This module is the acting schedule owner (R245). -/
def isOwner (g : Group) : Bool := (g.cfg.owners[g.ownerIdx]?) == some Config.nodeH0.val

/-- The plan of a segment. -/
def planOf (c : Cfg) (seg : Nat) : List SlotCfg := if seg = 1 then c.plan1 else c.plan2

/-- Length in 10 ns units of a slot that holds an uplink of a payload length (R232, R238). -/
def uplinkSlotLen (ul : Nat) : Nat := ((20 + max 64 (42 + ul)) * 8 + 1000 + 9) / 10

/-- The spare slots of a segment by number, with their lengths. -/
def spareSlots (c : Cfg) (seg : Nat) : List (Nat × Nat) :=
  ((planOf c seg).filter fun x => x.kind == 4).map fun x => (x.owner, x.len)

/-- A spare slot of a number that is long enough. -/
def slotFits (c : Cfg) (seg slot ul : Nat) : Bool := (spareSlots c seg).any fun x => x.1 == slot && uplinkSlotLen ul ≤ x.2

/-- The lowest-numbered free spare slot that fits (R247). -/
def freeSlot (g : Group) (seg ul : Nat) : Option Nat :=
  ((spareSlots g.cfg seg).filter fun x => uplinkSlotLen ul ≤ x.2 &&
    !(g.grants.any fun t => t.seg == seg && t.slot == x.1) &&
    !(g.grantOut.any fun t => t.seg == seg && t.slot == x.1 && !t.revoke)).foldl
      (fun best x => match best with
        | none => some x.1
        | some b => some (min b x.1)) none

/-- The address holds a planned uplink slot. -/
def plannedAddr (c : Cfg) (addr : Nat) : Bool := (planOf c (segOf addr)).any fun x => x.kind == 3 && x.owner == addr

/-- A claim's identity, class and length (R246). -/
def claimParts (f : UplinkFrame) : DWord × Nat × Nat :=
  (BitVec.ofNat 64 (beNat (sliceBytes f.payload 0 8)), beNat (sliceBytes f.payload 8 1), beNat (sliceBytes f.payload 10 2))

/-- The slot and length an address holds, or has been granted by a message that still waits (R247): granted again, the slot
keeps the length it was granted with, whatever the new claim asks (DESIGN CHOICE, log 135). -/
def heldSlot (g : Group) (addr : Nat) : Option (Nat × Nat) :=
  ((g.grants.find? fun t => t.addr == addr && t.until_.isNone).map fun t => (t.slot, t.len)).or
    ((g.grantOut.find? fun m => m.addr == addr && !m.revoke && m.slot != 0xFFFF).map fun m => (m.slot, m.len))

/-- A claim decided (R247): the messages that wait, and whether a vital claim was refused for its identity. What the table
leaves open is the model's choice (DESIGN CHOICE, log 135): a claim of any CLASS for a planned address is ignored and raises
no event; a CLASS other than vital is decided as non-vital; an UPLINK_LEN outside 8-512 or no multiple of 4 is decided like
any other; a refusal carries the length claimed. -/
def decideClaim (g : Group) (f : UplinkFrame) : Option GrantMsg × Bool :=
  let addr := f.head.sender % 4096
  let seg := segOf addr
  let (id, cls, ul) := claimParts f
  let refuse : GrantMsg := { addr := addr, seg := seg, revoke := false, slot := 0xFFFF, len := ul }
  let listed := g.cfg.vitalIds.any fun v => v.1 == addr && v.2.1 == id
  if plannedAddr g.cfg addr then (none, false)
  else if cls = 1 && !listed then (some refuse, true)
  else match heldSlot g addr with
    | some (k, n) => (some { addr := addr, seg := seg, revoke := false, slot := k, len := n }, false)
    | none => match freeSlot g seg ul with
      | some k => (some { addr := addr, seg := seg, revoke := false, slot := k, len := ul }, false)
      | none => (some refuse, false)

/-- A message put in address order; of one address the revocation alone stays (R247, R256). -/
def insertMsg (m : GrantMsg) : List GrantMsg → List GrantMsg
  | [] => [m]
  | x :: r => if m.addr < x.addr then m :: x :: r else x :: insertMsg m r

/-- A claim put in address order; one per address (R247, R256). -/
def insertClaim (f : UplinkFrame) : List UplinkFrame → List UplinkFrame
  | [] => [f]
  | x :: r =>
    if f.head.sender < x.head.sender then f :: x :: r
    else if f.head.sender = x.head.sender then x :: r
    else x :: insertClaim f r

/-- The claims every seated lane holds and the build of a round decides. -/
def readyClaims (s : State) (round : Nat) : List UplinkFrame :=
  match seated s with
  | [] => []
  | l :: ls =>
    ((lane s l).claims.filter fun c => c.1 ≤ round &&
      (ls.all fun k => (lane s k).claims.any fun d => d.2.head.sender == c.2.head.sender && d.1 ≤ round) &&
      !(s.grp.grantOut.any fun m => m.revoke && m.addr == c.2.head.sender % 4096)).foldl
        (fun t c => insertClaim c.2 t) []

/-- The lane as it builds the downlink of an activation round: under the new image's tables (R479 step 2). -/
def buildLane (g : Group) (round : DWord) (L : Lane) : Lane :=
  if g.actAt = some round && L.upd.st = 3 && !(g.session.any fun x => x.hdr.atStart) then
    let bank := (inactiveBank L.nv).data
    { L with cfg := parseCfg (loadMem bank []) (bankCfgBase bank) }
  else L

/-- The plan a round runs under: that of the new image from its activation round on (R479). -/
def planCfg (s : State) (round : DWord) : Cfg :=
  match (seated s).find? fun l => (lane s l).upd.st == 3 with
  | some l => (buildLane s.grp round (lane s l)).cfg
  | none => s.grp.cfg

/-- The claims of a build decided by the acting owner, in address order, under the plan of the round whose downlink carries the
answer (R245, R247); one of a planned address is ignored and counted by the group (log 121). Every lane drops the claims
decided; a lane of a module that is not the owner drops those whose build has come. -/
def decideClaims (s : State) (round : DWord) : State :=
  if isOwner s.grp then
    let fs := readyClaims s round.toNat
    let c := planCfg s round
    let s1 := fs.foldl (fun s f =>
      let (m, refused) := decideClaim { s.grp with cfg := c } f
      let s1 := modGrp s fun g => match m with
        | some x => { g with grantOut := insertMsg x (g.grantOut.filter fun y => y.addr != x.addr) }
        | none => { g with claimsIgnored := satInc g.claimsIgnored }
      if refused then
        event s1 bothHubs 0x8007 none 0 0 (leBytes 2 (f.head.sender % 4096) ++ leBytes 8 (claimParts f).1.toNat)
      else s1) s
    modLanes s1 allLanes fun _ L =>
      { L with claims := L.claims.filter fun c => !fs.any fun f => f.head.sender == c.2.head.sender }
  else modLanes s allLanes fun _ L => { L with claims := L.claims.filter fun c => round.toNat < c.1 }

/-- The payload of a GRANT or REVOKE (R251). -/
def grantPayload (m : GrantMsg) (round : DWord) : List Byte :=
  beBytes 2 m.slot ++ beBytes 2 (if m.revoke then 0 else m.len) ++ beBytes 4 ((round + 1).toNat % 2 ^ 32)

/-- A station's slot ends at EFFECTIVE_ROUND (R249). -/
def endGrant (addr : Nat) (eff : DWord) (g : Group) : Group :=
  { g with grants := g.grants.map fun t => if t.addr == addr && t.until_.isNone then { t with until_ := some eff } else t }

/-- The grants after a message went out in the downlink of a round: they take effect, or end, one round later (R248, R249). -/
def applyGrant (round : DWord) (g : Group) (m : GrantMsg) : Group :=
  if m.revoke then endGrant m.addr (round + 1) g
  else if m.slot = 0xFFFF || g.grants.any (fun t => t.addr == m.addr && t.until_.isNone) then g
  else { g with grants := g.grants ++ [{ seg := m.seg, slot := m.slot, addr := m.addr, len := m.len, since := round + 1 }] }

/-! ## DOWNLINK_BUILD (R114, R117, R236, R296, R479) -/

/-- A telegram with a seat's payload and share added. -/
def addShare (t : Tele) (st : SeatId) (x : TeleShare) : Tele :=
  match st with
  | .s1 => { t with s1 := some x }
  | .s2 => { t with s2 := some x }
  | .s3 => { t with s3 := some x }

/-- A hub takes one seat's telegram for a station. -/
def putTele (round : DWord) (c : Cfg) (st : SeatId) (t : Tbl Tele) (x : Nat × List Byte) : Tbl Tele :=
  let sq := round.setWidth 32
  let old := tblGetD t x.1 { addr := x.1, kind := 0, sq := sq }
  tblSet t x.1 (addShare old st { payload := x.2, share := shareOf c st x.1 0 sq round x.2 })

/-- A seat's share of a GRANT or REVOKE telegram. -/
def putGrant (round : DWord) (c : Cfg) (st : SeatId) (ts : List Tele) (ms : List GrantMsg) : List Tele :=
  (ts.zip ms).map fun x =>
    let p := grantPayload x.2 round
    addShare x.1 st { payload := p, share := shareOf c st x.2.addr x.1.kind (round.setWidth 32) round p }

/-- The revocations of the grants whose slot a plan does not keep, those among them that no telegram has carried yet
(R249, R256): the station is told the revocation alone, and claims again. -/
def revokeUnfit (c : Cfg) (g : Group) : Group :=
  let held := (g.grants.filter fun t => t.until_.isNone && !slotFits c t.seg t.slot t.len).map fun t => (t.addr, t.seg, t.slot)
  let told := (g.grantOut.filter fun m => !m.revoke && m.slot != 0xFFFF && !slotFits c m.seg m.slot m.len).map
    fun m => (m.addr, m.seg, m.slot)
  { g with grantOut := (held ++ told).foldl (fun ms t =>
      insertMsg { addr := t.1, seg := t.2.1, revoke := true, slot := t.2.2, len := 0 }
        (ms.filter fun m => m.addr != t.1)) g.grantOut }

/-- The build of the round before an activation revokes what the new plan does not keep, for the activation round: also what
that build has just granted (R256). -/
def revokeForPlan (s : State) (round : DWord) : State :=
  match (seated s).find? fun l => (lane s l).upd.st == 3 with
  | some l =>
    if isOwner s.grp && s.grp.actAt == some (round + 1) then
      modGrp s (revokeUnfit (buildLane s.grp (round + 1) (lane s l)).cfg)
    else s
  | none => s

/-- A stamped service request. -/
def isService (a : Action) : Bool := match a.kind with
  | .service _ _ _ _ _ => true
  | _ => false

/-- A service request joins its station's queue; the first one goes out at once, with a new SVC_SEQ (R301). -/
def queueService (round : DWord) (t : Tbl SvcSt) (a : Action) : Tbl SvcSt :=
  match a.kind with
  | .service addr write param data len =>
    let v := tblGetD t addr {}
    let q : SvcReq := { write := write, param := param, data := data, len := len, hub := a.hub, tag := a.tag,
                        handle := a.handle, round := a.slot }
    if v.queue.isEmpty then tblSet t addr { v with queue := [q], sq := v.sq + 1, since := some round }
    else tblSet t addr { v with queue := v.queue ++ [q] }
  | _ => t

/-- The service requests stamped for a round, or for one before it, start (R301). -/
def takeServices (round : DWord) (g : Group) : Group :=
  let due := (sortActs (g.actions.filter isService)).filter fun a => a.slot ≤ round
  { g with svc := due.foldl (queueService round) g.svc,
           actions := g.actions.filter fun a => !(isService a && a.slot ≤ round) }

/-- What a seat builds for a round: its payloads and its gate command frames (R113, R114). -/
structure Built where
  seat  : SeatId
  cfg   : Cfg
  pay   : List (Nat × List Byte)
  gates : Duo GateFrame
  deriving DecidableEq, Repr

/-- What a lane builds for a round with a seat. -/
def builtOf (s : State) (round : DWord) (L0 : Lane) (st : SeatId) : Built :=
  let L := buildLane s.grp round L0
  { seat := st, cfg := L.cfg, pay := payloadsOf s.grp (s.mod.op == .bench) L,
    gates := ⟨gateFrame s L st .t0 round, gateFrame s L st .t1 round⟩ }

/-- What the seats of a state build for a round. -/
def buildAll (s : State) (round : DWord) : List (LaneId × Built) :=
  (((seated s).filterMap fun l => (seatOfLane s l).map fun st => (l, st)).filter fun x =>
    (lane s x.1).hubWords && !(lane s x.1).dbg.halted).map fun x => (x.1, builtOf s round (lane s x.1) x.2)

/-- The words of a gate command frame. -/
def gateWords (f : GateFrame) : List Word := [f.upper ++ f.lower, f.cuffs.setWidth 32]

/-- What a seat has built as outbound words with their destinations, as its contribution for context 0 lists them (R113). -/
def execWords (ms : List GrantMsg) (round : DWord) (x : Built) : List (Nat × Word) :=
  (x.pay.flatMap fun p => (bytesWords p.2).map fun w => (p.1, w)) ++
    (ms.flatMap fun m => (bytesWords (grantPayload m round)).map fun w => (m.addr, w)) ++
    (gateWords x.gates.a ++ gateWords x.gates.b).map fun w => (0xFFFF, w)

/-- The signed outbound words of a build: payloads and grants to both hubs, gate commands to the tiles (R39). -/
def buildItems (ms : List GrantMsg) (round : DWord) (x : Built) : List (Nat × DWord) :=
  let ws := (x.pay.flatMap fun p => bytesWords p.2) ++ ms.flatMap fun m => bytesWords (grantPayload m round)
  ws.map (outItem 4) ++ ws.map (outItem 5) ++ (gateWords x.gates.a).map (outItem 6) ++ (gateWords x.gates.b).map (outItem 7)

/-- A seat's gate commands, sent, and the CTX_SAFE bits of its view, as built (R285, R312, R450). -/
def keepBuilt (bench : Bool) (x : Built) (L0 : Lane) : Lane :=
  let L := laneRaw 3 (laneRaw 2 L0)
  { L with
    gates := ⟨some x.gates.a, some x.gates.b⟩
    stn := L.stn.map fun e => (e.1, { e.2 with ctxSafe :=
      (L.cfg.stations.find? fun y => y.addr == e.1).any fun y => stnSafe L bench y }) }

/-- What the hubs take of a build (R236, R251). -/
def putBuilt (round : DWord) (ms : List GrantMsg) (bs : List Built) (s : State) : State :=
  let empty := ms.map fun m => ({ addr := m.addr, kind := if m.revoke then 2 else 1, sq := round.setWidth 32 } : Tele)
  let tele := bs.foldl (fun t x => x.pay.foldl (putTele round x.cfg x.seat) t) ([] : Tbl Tele)
  let gts := bs.foldl (fun t x => putGrant round x.cfg x.seat t ms) empty
  bothHubs.foldl (fun s h => modHub s h fun H => { H with tele := tele, grantTele := gts }) s

/-- DOWNLINK_BUILD: each seat builds its payloads, shares and gate frames for the next round, and
sends them once the window that holds them has compared equal (R41, R114, R236, R312, R363). In an image without vital
contexts its contribution for context 0 lists what it has built (R113). -/
def downlinkBuild (s : State) : State :=
  if !groupRuns s.grp || s.mod.op = .startUp || !s.grp.roundFixed then s
  else
    let round := if s.grp.firstBoundary then s.grp.round + 1 else s.grp.round
    let s1 := modLanes s (runLanes s) fun _ L => noteRamps L
    let s2 := revokeForPlan (decideClaims (modGrp s1 (takeServices round)) round) round
    let ms := s2.grp.grantOut.take s2.grp.cfg.grantRoom
    let all := buildAll s2 round
    let s3 := all.foldl (fun s x => signWords x.1 (buildItems ms round x.2) s) s2
    let bs := all.filter fun x => !(lane s3 x.1).fenced
    let s4 := bs.foldl (fun s x => modLane s x.1 (keepBuilt (s.mod.op == .bench) x.2)) (putBuilt round ms (bs.map (·.2)) s3)
    let s5 := modGrp s4 fun g => { ms.foldl (applyGrant round) g with grantOut := g.grantOut.drop g.cfg.grantRoom }
    if (longestVital s.grp.cfg).isNone && s.grp.firstBoundary then
      sendContribs s5 0 s.grp.round fun _ L st => execWords ms round (builtOf s2 round L st)
    else s5

/-- DOWNLINK_BUILD (R114). -/
def execDownlinkBuild (s : State) : Host.Outcome State Fault Refusal := .next (whenOn s downlinkBuild)

end Sys2Proof.Machine
end

