-- ==== Sys2Proof/Machine/Tiles.lean ====
section
/-! DEFINITION. The field tiles: gate command frames, strobes and snapshots, inputs, counting, gloves and test pulses,
cuffs, supply sag, couplers and logic silence (R308-R344, R350). A channel operand is its number 0-15 on its tile. -/

namespace Sys2Proof.Machine

open Sys2Proof

/-! ## Parts of a tile -/

/-- A channel of a tile. -/
def chan (T : Tile) (k : Nat) : Chan := (T.chans.toList[k]?).getD {}

/-- A tile with a channel changed. -/
def modChan (T : Tile) (k : Nat) (f : Chan → Chan) : Tile := { T with chans := T.chans.setIfInBounds k (f (chan T k)) }

/-- A tile with every channel changed by its number. -/
def mapChans (T : Tile) (f : Nat → Chan → Chan) : Tile :=
  { T with chans := Vector.ofFn fun (k : Fin 16) => f k.val (chan T k.val) }

/-- The configuration word of a channel (R339). -/
def chWord (T : Tile) (k : Nat) : DWord := (T.chWords[k]?).getD 0

/-- The drive stage of a seat. -/
def seatDrive (T : Tile) : SeatId → SeatDrive
  | .s1 => T.seat1
  | .s2 => T.seat2
  | .s3 => T.seat3

/-- A tile with a seat's drive stage replaced. -/
def setDrive (T : Tile) (st : SeatId) (d : SeatDrive) : Tile :=
  match st with
  | .s1 => { T with seat1 := d }
  | .s2 => { T with seat2 := d }
  | .s3 => { T with seat3 := d }

/-- A tile with each seat's drive stage changed. -/
def modDrives (T : Tile) (f : SeatDrive → SeatDrive) : Tile :=
  { T with seat1 := f T.seat1, seat2 := f T.seat2, seat3 := f T.seat3 }

/-- The tile is in mitten mode (R340). -/
def mitten (T : Tile) : Bool := T.word.getLsbD 0

/-- TILE_SILENCE in rounds (R340). -/
def tileSilence (T : Tile) : Nat := T.word.toNat / 2 ^ 8 % 1024

/-- The cuff group of a channel: false the first. -/
def groupOfCh (k : Nat) : Bool := 8 ≤ k

/-- The cuff of a channel's group. -/
def cuffOf (T : Tile) (k : Nat) : Cuff := duoGet T.cuffs (groupOfCh k)

/-- A tile with a cuff changed. -/
def modCuff (T : Tile) (b : Bool) (f : Cuff → Cuff) : Tile := { T with cuffs := duoSet T.cuffs b (f (duoGet T.cuffs b)) }

/-- The VITAL bit of a channel (R339). -/
def chVital (T : Tile) (k : Nat) : Bool := (chWord T k).getLsbD 3

/-- The number 0-31 of a tile's channel (R308). -/
def chNum (t : TileId) (k : Nat) : Nat := 16 * tileNum t + k

/-! ## What conducts (R312, R325, R333, R337) -/

/-- The lane that drives a seat's elements: the seat's lane in the tile's map while its gates are on (R45, R309). -/
def gateLane (s : State) (t : TileId) (st : SeatId) : Option LaneId :=
  (seatLane (tile s t).map st).filter fun l => (lane s l).gatesOn

/-- The coupler of a seat on a channel has failed and is not replaced yet (R310). -/
def seatCouplerDown (c : Chan) (st : SeatId) : Bool := c.failCpl.contains (seatNum st - 1)

/-- A seat's upper element of a channel is on. -/
def upperOn (s : State) (t : TileId) (k : Nat) (st : SeatId) : Bool :=
  (gateLane s t st).isSome && (seatDrive (tile s t) st).upper.getLsbD k && !seatCouplerDown (chan (tile s t) k) st

/-- A seat's lower element of a channel is on. -/
def lowerOn (s : State) (t : TileId) (k : Nat) (st : SeatId) : Bool :=
  (gateLane s t st).isSome && (seatDrive (tile s t) st).lower.getLsbD k && !seatCouplerDown (chan (tile s t) k) st

/-- At least two seats command a channel on (R341). -/
def commandedOn (s : State) (t : TileId) (k : Nat) : Bool :=
  2 ≤ (allSeats.filter fun st => upperOn s t k st || lowerOn s t k st).length

/-- Both elements of some pair are on: upper 1 with lower 2, upper 2 with lower 3, upper 3 with lower 1 (R325). -/
def pairsConduct (s : State) (t : TileId) (k : Nat) : Bool :=
  (upperOn s t k .s1 && lowerOn s t k .s2) || (upperOn s t k .s2 && lowerOn s t k .s3) ||
    (upperOn s t k .s3 && lowerOn s t k .s1)

/-- A cuff is closed: at least two seats command it, and no overcurrent has opened it (R333); those of a mitten tile are always
open (R315). -/
def cuffShut (s : State) (t : TileId) (b : Bool) : Bool :=
  let T := tile s t
  let q := duoGet T.cuffs b
  T.fieldUp && !mitten T && !q.overcur &&
    2 ≤ (allSeats.filter fun st => (gateLane s t st).isSome && (seatDrive T st).cuffs.getLsbD (if b then 1 else 0)).length

/-- The field side or the seats hold a channel's elements released: LOST, OVERLOAD, a sag of a non-vital output, logic
silence (R311, R331, R336, R337). -/
def heldReleased (T : Tile) (k : Nat) : Bool :=
  let c := chan T k
  c.lost || c.overload || (!chVital T k && (cuffOf T k).release) || !T.fieldUp

/-- An output or source node stands on: above 8 V (R325, R333, R341). A source of a mitten tile is on but in its tests; in
coupler mode it is on while the logic is not silent. -/
def nodeOn (s : State) (t : TileId) (k : Nat) : Bool :=
  let T := tile s t
  if heldReleased T k || (chan T k).testing.isSome then false
  else if chMode (chWord T k) = 3 then mitten T || !T.logicSilent
  else !T.logicSilent && pairsConduct s t k && cuffShut s t (groupOfCh k) && 8000 < (cuffOf T k).mv

/-! ## Status words (R341) -/

/-- The states of a used channel below SAG_HELD that hold (R341). -/
def ownStates (c : Chan) : List Nat :=
  [1] ++ (if c.chatter then [2] else []) ++ (if c.tpFail then [3] else []) ++ (if c.threshold then [4] else []) ++
    (if c.glove then [5] else []) ++ (if c.overload then [6] else []) ++ (if c.extFeed then [7] else []) ++
    (if c.wired.isSome then [8] else [])

/-- Every channel state that holds of a channel: an opened cuff puts all channels of its group in CUFF_OPEN (R334, R335). -/
def chStates (T : Tile) (k : Nat) : List Nat :=
  let w := chWord T k
  let c := chan T k
  let q := cuffOf T k
  (if chMode w = 0 then [0] else ownStates c) ++
    (if chMode w == 2 && (if chVital T k then q.sag else q.release) then [9] else []) ++
    (if q.overcur || q.forGood || q.openFlt then [10] else []) ++ (if c.lost then [11] else [])

/-- CH_STATE: the highest number that holds (R341). -/
def chState (T : Tile) (k : Nat) : Nat := (chStates T k).foldl max 0

/-- A test has found that something other than the seats' commands drives a channel's node: an element stuck closed, a feed
from outside, a wire to another channel, or a channel that is LOST (R331, R334). -/
def foreignNode (c : Chan) : Bool := c.glove || c.extFeed || c.wired.isSome || c.lost

/-- The value of a channel: the debounced input, or the output node (R341). Whether a node that the commands do not drive stands
above 8 V is measured on the field side and given by no command: a free value (log 140). -/
def chValue (s : State) (t : TileId) (k : Nat) : Bool :=
  if chMode (chWord (tile s t) k) = 1 then (chan (tile s t) k).deb
  else nodeOn s t k || (foreignNode (chan (tile s t) k) && Config.nodeFed s.free (chNum t k))

/-- The channel status word (R341). -/
def chStatus (s : State) (t : TileId) (k : Nat) : BitVec 16 :=
  let T := tile s t
  let c := chan T k
  BitVec.ofNat 16 (packFields
    [(4, chState T k), (1, (chValue s t k).toNat), (1, (chMode (chWord T k) == 2 && commandedOn s t k).toNat),
     (1, (cuffOf T k).low.toNat), (1, c.spareCpl.isSome.toNat), (3, c.pairOpen.toNat),
     (5, if chState T k = 8 then c.wired.getD 0 else 0)])

/-- The LPLUS code of a group in the status word: the second group of a mitten tile is not used (R341). -/
def lplusCode (T : Tile) (b : Bool) : Nat := if b && mitten T then 3 else (duoGet T.cuffs b).code

/-- The tile status word (R341). -/
def tileWord (s : State) (t : TileId) : DWord :=
  let T := tile s t
  let heard := (allSeats.map fun st => if (seatDrive T st).heard then 2 ^ (seatNum st - 1) else 0).foldl (· + ·) 0
  let spare := ((List.range 16).map fun k => if (chan T k).spareCpl.isSome then 2 ^ k else 0).foldl (· + ·) 0
  BitVec.ofNat 64 (packFields
    [(1, tileNum t), (1, (mitten T).toNat), (2, lplusCode T false), (2, lplusCode T true), (1, T.cuffs.a.sag.toNat),
     (1, T.cuffs.b.sag.toNat), (1, (!cuffShut s t false).toNat), (1, (!cuffShut s t true).toNat), (1, T.fieldUp.toNat),
     (1, T.logicSilent.toNat), (3, heard), (1, T.stray.toNat), (16, spare), (8, T.mittenMa.toNat),
     (8, if T.fieldUp then unsignedOf 8 T.fieldTemp else 0), (8, min 255 T.discards), (8, 0)])

/-! ## Tile events (R343) -/

/-- A TILE event (R343). -/
def tileEvent (s : State) (t : TileId) (ch kind grp new : Nat) : State :=
  event s [] 0x8012 (some (BitVec.ofNat 32 (tileNum t))) 0 0
    (leBytes 1 (tileNum t) ++ leBytes 1 ch ++ leBytes 1 kind ++ leBytes 1 grp ++ leBytes 1 new ++ [0, 0, 0])

/-- The cuff group number 0-3 (R308). -/
def cuffNum (t : TileId) (b : Bool) : Nat := 2 * tileNum t + b.toNat

/-- The events of one cuff group between two states of a tile. -/
def groupEvents (t : TileId) (old new : Tile) (s : State) (b : Bool) : State :=
  let p := duoGet old.cuffs b
  let q := duoGet new.cuffs b
  let s1 := if p.closed != q.closed then tileEvent s t 0xFF 2 (cuffNum t b) (!q.closed).toNat else s
  if lplusCode old b != lplusCode new b || p.sag != q.sag then
    tileEvent s1 t 0xFF 3 (cuffNum t b) (lplusCode new b + 4 * q.sag.toNat)
  else s1

/-- The events of every change between two states of a tile (R343). -/
def tileEvents (t : TileId) (old new : Tile) (s : State) : State :=
  let s1 := if old.logicSilent != new.logicSilent then tileEvent s t 0xFF 1 0xFF new.logicSilent.toNat else s
  let s2 := groupEvents t old new (groupEvents t old new s1 false) true
  (List.range 16).foldl (fun s k =>
    if chState old k != chState new k then tileEvent s t (chNum t k) 0 0xFF (chState new k) else s) s2

/-- The cuffs as they stand now. -/
def cuffsNow (s : State) (t : TileId) : State :=
  modTile s t fun T => modCuff (modCuff T false fun q => { q with closed := cuffShut s t false }) true
    fun q => { q with closed := cuffShut s t true }

/-- A tile changed: its cuffs follow, and every change raises its event. -/
def tilePut (t : TileId) (f : Tile → Tile) (s : State) : State :=
  let old := tile s t
  let s1 := cuffsNow (modTile s t f) t
  tileEvents t old (tile s1 t) s1

/-- A tile whose lanes' gates may have changed. -/
def tileSync (t : TileId) (s : State) : State := tilePut t id s

/-! ## Frames, strobes and snapshots (R312-R314, R337) -/

/-- The count of the round that the boundary starts: the group's first boundary starts the round its count was fixed to, and
a higher count of the bus, which counts the round in progress, is taken over (R279). -/
def newRound (g : Group) : DWord :=
  let r := if g.firstBoundary then g.round + 1 else g.round
  g.adoptRound.elim r fun b => if r ≤ b then b + 1 else r

/-- The round that the next boundary starts. -/
def nextRound (s : State) : DWord := newRound s.grp

/-- The round count the next strobe brings a tile to: its own count advanced; a field side that has not counted yet takes
the group's, and so does one at a boundary at which the group takes a higher count of the bus (log 40). -/
def nextField (s : State) (T : Tile) : DWord :=
  match T.fieldRound with
  | some r => if s.grp.adoptRound.isSome then nextRound s else r + 1
  | none => nextRound s

/-- A field side's current round count (R312; log 40). -/
def fieldNow (s : State) (T : Tile) : DWord :=
  T.fieldRound.getD (if s.grp.firstBoundary then s.grp.round else s.grp.round - 1)

/-- GATE_COMMAND_FRAME: a seat's drive stage takes a frame of its own seat with the current round count and a valid code, and
holds it until the next strobe; any other is discarded and counted (R312, R313). A seat whose lane's gates are off has no
frame to receive (R45). -/
def gateCommand (t : TileId) (f : GateFrame) (s : State) : State :=
  let T := tile s t
  if !T.fieldUp || (gateLane s t f.seat).isNone then s
  else if f.round = fieldNow s T && f.code = gateCode t f then
    setTile s t (setDrive T f.seat { seatDrive T f.seat with frame := some f })
  else setTile s t { T with discards := min 255 (T.discards + 1) }

/-- GATE_COMMAND_FRAME (R312). -/
def execGateCommandFrame (t : TileId) (f : GateFrame) (s : State) : Host.Outcome State Fault Refusal :=
  .next (whenOn s (gateCommand t f))

/-- DELTA as a snapshot carries it: saturating, signed for quadrature (R324). -/
def deltaOf (w : DWord) (d : Int) : Int :=
  if chCnt w = 3 then max (-32768) (min 32767 d) else max 0 (min 65535 d)

/-- A channel as the field side takes it at the first strobe of a boundary (R310, R313, R350). -/
def takeChan (s : State) (t : TileId) (k : Nat) : SnapChan :=
  let T := tile s t
  let c := chan T k
  { value := chValue s t k, count := c.count, delta := deltaOf (chWord T k) c.delta, status := chStatus s t k,
    conds := chStates T k,
    missing := c.failCpl.any fun x => 3 ≤ x && x ≤ 6, changes := c.changes, before := c.roundVal, tooMany := c.tooMany }

/-- A channel at the start of a round: a released overload whose command has been off for one round ends (R331). -/
def freshChan (s : State) (t : TileId) (k : Nat) (c : Chan) : Chan :=
  let done := c.overload && chMode (chWord (tile s t) k) == 2 && c.offSeen && !commandedOn s t k
  { c with delta := 0, changes := [], tooMany := false, roundVal := c.deb, overload := c.overload && !done }

/-- A seat's drive stage at a boundary: with a frame for it the seat is heard; without one a round of silence counts, and
after TILE_SILENCE rounds its elements are released (R314, R337). `now` is the count of the round that ends. -/
def countSeat (silence : Nat) (now : DWord) (d : SeatDrive) : SeatDrive :=
  if d.frame.any fun f => f.round == now then
    { d with silent := 0, isSilent := false, good := d.good + 1, heard := true, struck := false }
  else
    let n := d.silent + 1
    let q := d.isSilent || silence ≤ n
    { d with frame := none, silent := n, isSilent := q, good := 0, heard := false, struck := false,
             upper := if q then 0 else d.upper, lower := if q then 0 else d.lower, cuffs := if q then 0 else d.cuffs }

/-- Seats that are silent. -/
def silentSeats (T : Tile) : Nat := (allSeats.filter fun st => (seatDrive T st).isSilent).length

/-- LOGIC_SILENT after the seats of a boundary are counted: entered with two silent seats, left with two that have
delivered valid frames for 2 consecutive rounds (R337). -/
def logicAfter (T : Tile) : Bool :=
  if T.logicSilent then (allSeats.filter fun st => 2 ≤ (seatDrive T st).good).length < 2 else 2 ≤ silentSeats T

/-- The first strobe of a boundary (R313): the field side counts the round and takes every channel as it stands; a new
seat map is switched in (R71); the seats and LOGIC_SILENT are counted. -/
def firstStrobe (t : TileId) (s0 : State) : State :=
  let s := useFree (if mitten (tile s0 t) then modTile s0 t fun T => { T with mittenMa := Config.mittenLoad s0.free } else s0)
  let T := tile s t
  let r := nextField s T
  let taken := (List.range 16).map (takeChan s t)
  let T0 := mapChans T (freshChan s t)
  let T1 := modDrives { T0 with taken := taken, fieldRound := some r, boundary := some (nextRound s),
                                map := T.newMap.getD T.map, newMap := none } (countSeat (tileSilence T) (fieldNow s T))
  setTile s t { T1 with logicSilent := logicAfter T1 }

/-- A seat's elements switch to the commands it delivered for the round (R313). -/
def strike (st : SeatId) (T : Tile) : Tile :=
  let d := seatDrive T st
  let d1 := match d.frame with
    | some f => { d with upper := f.upper, lower := f.lower, cuffs := f.cuffs, frame := none }
    | none => d
  setDrive T st { d1 with struck := true }

/-- The strobes of the boundary so far. -/
def strobesOf (T : Tile) : Nat := (allSeats.filter fun st => (seatDrive T st).struck).length

/-- A channel after a strobe: whether its command is off since then. -/
def noteOff (s : State) (t : TileId) : State :=
  modTile s t fun T => mapChans T fun k c => { c with offSeen := !commandedOn s t k }

/-- The snapshot latched at the second strobe (R313). -/
def latchSnap (s : State) (t : TileId) : State :=
  modTile s t fun T =>
    if strobesOf T = 2 then
      { T with snap := some { round := T.fieldRound.getD 0, chans := T.taken, word := tileWord s t,
                              mittenOk := !(mitten T && T.cuffs.a.code == 2) } }
    else T

/-- TILE_STROBE: a seat's strobe of the boundary that starts next. -/
def tileStrobe (t : TileId) (st : SeatId) (s : State) : State :=
  let T := tile s t
  if !T.fieldUp || !groupRuns s.grp || !s.grp.roundFixed || (gateLane s t st).isNone then s
  else
    let fresh := T.boundary != some (nextRound s)
    if !fresh && (seatDrive T st).struck then s
    else
      let s1 := if fresh then firstStrobe t s else s
      let s2 := noteOff (modTile s1 t (strike st)) t
      let s3 := latchSnap (cuffsNow s2 t) t
      tileEvents t T (tile s3 t) s3

/-- TILE_STROBE (R313). -/
def execTileStrobe (t : TileId) (seat : SeatId) (s : State) : Host.Outcome State Fault Refusal :=
  .next (whenOn s (tileStrobe t seat))

/-- A lane with a tile's snapshot. -/
def setSnap (t : TileId) (z : Option Snapshot) (L : Lane) : Lane :=
  match t with
  | .t0 => { L with snap0 := z }
  | .t1 => { L with snap1 := z }

/-- The latest snapshot a lane holds of a tile. -/
def laneSnap (t : TileId) (L : Lane) : Option Snapshot :=
  match t with
  | .t0 => L.snap0
  | .t1 => L.snap1

/-- The round whose snapshot of a tile a lane has given up (R314). -/
def snapMiss (t : TileId) (L : Lane) : Option DWord := duoGet L.snapMiss (t == .t1)

/-- The words of a snapshot a lane takes in (R35, R313). -/
def snapWords (z : Snapshot) : List DWord :=
  z.round :: z.word :: z.chans.map fun c => BitVec.ofNat 64 (c.value.toNat + 2 * c.count.toNat + 2 ^ 34 * c.status.toNat)

/-- SNAPSHOT_RECEIVED: the tile's latest snapshot reaches the lane (R313); one for which the lane has waited its 50 µs comes too
late for the round (R314). -/
def snapshotReceived (l : LaneId) (t : TileId) (s : State) : State :=
  match (tile s t).snap with
  | some z =>
    if (lane s l).nv.retire ≠ 0 || !(tile s t).fieldUp then s
    else modLane s l fun L0 =>
      let L := laneRaw (tileNum t) L0
      if snapMiss t L = some z.round then L else takesIn (snapWords z) (setSnap t (some z) L)
  | none => s

/-- SNAPSHOT_RECEIVED (R313). -/
def execSnapshotReceived (l : LaneId) (t : TileId) (s : State) : Host.Outcome State Fault Refusal :=
  .next (whenOn s (snapshotReceived l t))

/-- The tile word of a snapshot whose tile no longer answers: FIELD_UP and FIELD_TEMP 0 (R341). -/
def deadWord (w : DWord) : DWord := w &&& ~~~(0x0000FF0000000400 : DWord)

/-- TILE_SNAPSHOT_TIMEOUT: no snapshot of the boundary that starts next has come, so the tile's channels are missing for the
round, whatever comes later, and FIELD_UP reads 0 (R314, R341). -/
def snapshotTimeout (l : LaneId) (t : TileId) (s : State) : State :=
  modLane s l fun L =>
    if (laneSnap t L).any fun z => z.round == nextRound s then L
    else setSnap t ((laneSnap t L).map fun z => { z with word := deadWord z.word })
      { L with snapMiss := duoSet L.snapMiss (t == .t1) (some (nextRound s)) }

/-- TILE_SNAPSHOT_TIMEOUT (R314). -/
def execTileSnapshotTimeout (l : LaneId) (t : TileId) (s : State) : Host.Outcome State Fault Refusal :=
  .next (whenOn s (snapshotTimeout l t))

/-- A silent seat's elements are released (R337). -/
def silence (d : SeatDrive) : SeatDrive := { d with frame := none, isSilent := true, good := 0, upper := 0, lower := 0, cuffs := 0 }

/-- SEAT_SILENT: a seat without a valid frame for TILE_SILENCE rounds; a group that sends no frames is silent on every
seat, and a frame it sent before is too old by then (R337, R344). -/
def seatSilent (t : TileId) (st : SeatId) (s : State) : State :=
  let T := tile s t
  let d := seatDrive T st
  if T.fieldUp && !d.isSilent && ((d.frame.isNone && tileSilence T ≤ d.silent) || !groupRuns s.grp) then
    tilePut t (fun T =>
      let T1 := setDrive T st (silence (seatDrive T st))
      { T1 with logicSilent := T1.logicSilent || 2 ≤ silentSeats T1 }) s
  else s

/-- SEAT_SILENT (R337). -/
def execSeatSilent (t : TileId) (seat : SeatId) (s : State) : Host.Outcome State Fault Refusal :=
  .next (whenOn s (seatSilent t seat))

/-- SEAT_MAP_RECEIVED: a seated lane's map; once two seated lanes have sent the same one, it waits for the next output
commit (R71). -/
def seatMap (t : TileId) (sender : LaneId) (m : SeatMap) (s : State) : State :=
  if isSeated s sender then
    modTile s t fun T =>
      let off := quadSet T.offered sender (some m)
      if 2 ≤ (allLanes.filter fun l => isSeated s l && quadGet off l == some m).length then
        { T with offered := ⟨none, none, none, none⟩, newMap := some m }
      else { T with offered := off }
  else s

/-- SEAT_MAP_RECEIVED (R71). -/
def execSeatMapReceived (t : TileId) (sender : LaneId) (map : SeatMap) (s : State) :
    Host.Outcome State Fault Refusal := .next (whenOn s (seatMap t sender map))

/-! ## Inputs (R318-R324) -/

/-- A channel is an input. -/
def isInput (T : Tile) (k : Nat) : Bool := k < 16 && chMode (chWord T k) == 1

/-- THRESHOLD_CALIBRATION, its lane side background work of the seated lanes (R22, R499): an input whose comparator cannot be
trimmed to within 0.5 V is in THRESHOLD (R319); with the tile's calibration records invalid every input stays there (R512). -/
def thresholds (t : TileId) (offs : List Nat) (s0 : State) : State :=
  if (tile s0 t).fieldUp && (seated s0).all fun l => bgTurn s0 l 1 then
    let s := modLanes s0 allLanes fun _ L => bgMark (calKey t) s0.grp.groupTime.toNat L
    tilePut t (fun T => mapChans T fun k c =>
      if isInput T k then { c with threshold := !T.calOk || 500 < (offs[k]?).getD 0 } else c) s
  else s0

/-- THRESHOLD_CALIBRATION (R319). -/
def execThresholdCalibration (t : TileId) (offMv : List Nat) (s : State) : Host.Outcome State Fault Refusal :=
  .next (whenOn s (thresholds t offMv))

/-- CHAT_COUNT of a channel (R339). -/
def chatLimit (w : DWord) : Nat := w.toNat / 2 ^ 32 % 256

/-- A debounced change in a channel (R321, R350). -/
def debChan (w : DWord) (level : Bool) (off : Nat) (c : Chan) : Chan :=
  let n := c.chatCnt + 1
  let full := 8 ≤ c.changes.length
  let enter := chatLimit w < n && !c.chatter
  { c with deb := level, chatCnt := n, chatter := c.chatter || enter, calm := if enter then 0 else c.calm,
           changes := if full then c.changes else c.changes ++ [{ off := off, val := level }],
           tooMany := c.tooMany || full }

/-- DEBOUNCE_CHANGE: the debounced value changes; with COS_EN, outside CHATTER, an event tells of it (R318, R320, R321).
A value that a dark pulse holds does not change (R322). -/
def debounce (t : TileId) (k : Nat) (level : Bool) (off : Nat) (s : State) : State :=
  let T := tile s t
  let c := chan T k
  let w := chWord T k
  if !T.fieldUp || !isInput T k || c.deb == level || c.heldIn then s
  else
    let s1 := tilePut t (fun T => modChan T k (debChan w level off)) s
    if w.getLsbD 4 && !(chan (tile s1 t) k).chatter then
      event s1 [] 0x8013 (some (BitVec.ofNat 32 (tileNum t))) 0 0
        (leBytes 1 (chNum t k) ++ leBytes 1 level.toNat ++ leBytes 4 off)
    else s1

/-- DEBOUNCE_CHANGE (R318). -/
def execDebounceChange (t : TileId) (ch : Nat) (level : Bool) (off5us : Nat) (s : State) :
    Host.Outcome State Fault Refusal := .next (whenOn s (debounce t ch level off5us))

/-- A channel at the end of a chatter window (R321). -/
def chatEnd (w : DWord) (c : Chan) : Chan :=
  let calm := if c.chatCnt ≤ 1 then c.calm + 1 else 0
  { c with chatCnt := 0, calm := calm, chatter := c.chatter && (w.getLsbD 7 || calm < 3) }

/-- CHATTER_WINDOW_END: one event per window while in CHATTER; three calm windows end it unless it is latched (R321). -/
def chatterEnd (t : TileId) (k : Nat) (s : State) : State :=
  let T := tile s t
  let c := chan T k
  if !T.fieldUp || !isInput T k then s
  else
    let s1 := if c.chatter then
        event s [] 0x8014 (some (BitVec.ofNat 32 (tileNum t))) 0 0 (leBytes 1 (chNum t k) ++ leBytes 4 c.chatCnt)
      else s
    tilePut t (fun T => modChan T k (chatEnd (chWord T k))) s1

/-- CHATTER_WINDOW_END (R321). -/
def execChatterWindowEnd (t : TileId) (ch : Nat) (s : State) : Host.Outcome State Fault Refusal :=
  .next (whenOn s (chatterEnd t ch))

/-- What an edge adds to a count in a counting mode (R324). -/
def edgeStep (mode : Nat) : CountEdge → Int
  | .rise => if mode = 1 || mode = 2 then 1 else 0
  | .fall => if mode = 2 then 1 else 0
  | .quadUp => if mode = 3 then 1 else 0
  | .quadDown => if mode = 3 then -1 else 0

/-- COUNTING_PULSE: an edge past the 3-sample filter moves the count (R324). -/
def countPulse (t : TileId) (k : Nat) (e : CountEdge) (s : State) : State :=
  let T := tile s t
  if !T.fieldUp || !isInput T k then s
  else
    let d := edgeStep (chCnt (chWord T k)) e
    setTile s t (modChan T k fun c => { c with count := c.count + BitVec.ofInt 32 d, delta := c.delta + d })

/-- COUNTING_PULSE (R324). -/
def execCountingPulse (t : TileId) (ch : Nat) (edge : CountEdge) (s : State) : Host.Outcome State Fault Refusal :=
  .next (whenOn s (countPulse t ch edge))

/-! ## Gloves and test pulses (R322, R328-R332, R344) -/

/-- The inputs of a tile that name channel k as their source (R322, R339). -/
def namesSource (t : TileId) (T : Tile) (k j : Nat) : Bool :=
  isInput T j && (chWord T j).toNat / 2 ^ 22 % 64 == chNum t k

/-- A channel may be tested now: an output or source with a test of its state enabled, not LOST (R311), no test running. -/
def mayTest (s : State) (t : TileId) (k : Nat) : Bool :=
  let T := tile s t
  let w := chWord T k
  T.fieldUp && k < 16 && (chMode w == 2 || chMode w == 3) && (chan T k).testing.isNone &&
    !(chan T k).lost &&
    (if nodeOn s t k then w.getLsbD 30 else w.getLsbD 29)

/-- A source that cannot give its test: GLOVE_FAULT, OVERLOAD or LOST (R344). -/
def sourceDown (c : Chan) : Bool := c.glove || c.overload || c.lost

/-- Every input that a channel's dark pulse would test enters TP_FAIL (R316, R344). -/
def failInputs (t : TileId) (k : Nat) (T : Tile) : Tile :=
  mapChans T fun j c => if namesSource t T k j then { c with tpFail := true } else c

/-- A channel's own test begins, where it may: its dark pulse holds the inputs that name it, or the sub-pulses begin
(R322, R328). -/
def ownTest (t : TileId) (k : Nat) (s : State) : State :=
  let T := tile s t
  if mayTest s t k then
    let dark := nodeOn s t k
    let T1 := mapChans T fun j c => if dark && namesSource t T k j then { c with heldIn := true } else c
    setTile s t (modChan T1 k fun c => { c with testing := some { dark := dark } })
  else s

/-- TEST_PULSE_START: a channel's slot starts. A source, or an output with dark pulses that inputs name, fails those inputs
while it is down (R322, R344); the overload of a source ends, without a test (R316); else the channel's own test begins. -/
def testStart (t : TileId) (k : Nat) (s : State) : State :=
  let T := tile s t
  let down := T.fieldUp && k < 16 && sourceDown (chan T k)
  if down && chMode (chWord T k) == 3 then
    tilePut t (fun T => modChan (failInputs t k T) k fun c => { c with overload := false }) s
  else if down && chMode (chWord T k) == 2 && (chWord T k).getLsbD 30 then ownTest t k (tilePut t (failInputs t k) s)
  else ownTest t k s

/-- TEST_PULSE_START (R328). -/
def execTestPulseStart (t : TileId) (ch : Nat) (s : State) : Host.Outcome State Fault Refusal :=
  .next (whenOn s (testStart t ch))

/-- A midpoint lies within 35-65 % of L+. -/
def midOk (lplus v : Nat) : Bool := 35 * lplus ≤ 100 * v && 100 * v ≤ 65 * lplus

/-- The two seats of pair 0 (1-2), 1 (2-3) and 2 (1-3): that of the upper and of the lower element (R325). -/
def pairSeats : Nat → SeatId × SeatId
  | 0 => (.s1, .s2)
  | 1 => (.s2, .s3)
  | _ => (.s3, .s1)

/-- A pair is tested: both its seats are filled (R330). -/
def pairTested (T : Tile) (p : Nat) : Bool :=
  (seatLane T.map (pairSeats p).1).isSome && (seatLane T.map (pairSeats p).2).isSome

/-- PAIR_OPEN with one pair judged. -/
def setPair (b : BitVec 3) (p : Nat) (opened : Bool) : BitVec 3 :=
  let m : BitVec 3 := BitVec.ofNat 3 (2 ^ p)
  if opened then b ||| m else b &&& ~~~m

/-- What the current-sense trim of channel n makes of 10,000 mA at the sensor (R412, R513): the setting's steps are 0.01 %. -/
def senseGain (s : State) (n : Nat) : Nat := (10000 + tblGetD s.grp.settings.isense n 0).toNat

/-- The finding of a dark pulse in the channel itself (R328, R331): a midpoint away from half is an element stuck closed;
at 20 mA or more a pair with under 20 % of the current cannot close. Currents are read through the trim (R513). -/
def judgeDark (T : Tile) (f : Nat) (g : GloveReading) (c : Chan) : Chan :=
  let stuck := g.mids.any fun v => !midOk g.lplusMv v
  let pairs := if 20 * 10000 ≤ f * g.loadMa then
      (List.range 3).foldl (fun b p =>
        if pairTested T p then setPair b p (5 * (g.pairsMa[p]?).getD 0 < g.loadMa) else b) c.pairOpen
    else c.pairOpen
  { c with glove := c.glove || stuck, pairOpen := pairs }

/-- An element of a sub-pulse has moved its midpoint (R328): the upper ones above 75 %, the lower ones below 25 %. -/
def subOk (g : GloveReading) (i : Nat) : Bool :=
  let v := (g.subs[i]?).getD 0
  if i % 2 = 0 then 75 * g.lplusMv < 100 * v else 100 * v < 25 * g.lplusMv

/-- The seat of the element that sub-pulse i turns on. -/
def subSeat (i : Nat) : SeatId := if i % 2 = 0 then (pairSeats (i / 2)).1 else (pairSeats (i / 2)).2

/-- An element that is tested and does not close (R328, R330). -/
def subOpen (T : Tile) (g : GloveReading) (i : Nat) : Bool := (seatLane T.map (subSeat i)).isSome && !subOk g i

/-- The finding of the sub-pulses in the channel itself (R328, R331): a node at 5 V or more with every midpoint at half
and no pair current is fed from elsewhere; any other trouble is an element stuck closed. Currents are read through the trim
(R513). -/
def judgeLight (T : Tile) (f : Nat) (g : GloveReading) (c : Chan) : Chan :=
  let mids := g.mids.all (midOk g.lplusMv)
  let fed := 5000 < g.nodeMv && mids && f * g.pairMa ≤ 2 * 10000
  let stuck := !mids || 2 * 10000 < f * g.pairMa
  let pairs := (List.range 3).foldl (fun b p =>
    if (seatLane T.map (pairSeats p).1).isSome || (seatLane T.map (pairSeats p).2).isSome then
      setPair b p (subOpen T g (2 * p) || subOpen T g (2 * p + 1))
    else b) c.pairOpen
  { c with glove := c.glove || stuck, extFeed := c.extFeed || fed, pairOpen := pairs }

/-- An input that names the tested channel, after its dark pulse (R322): on throughout, TP_FAIL; passed, a non-vital
input leaves TP_FAIL. -/
def judgeInput (T : Tile) (g : GloveReading) (j : Nat) (c : Chan) : Chan :=
  if !c.deb then { c with heldIn := false }
  else if g.rawOn.contains j then { c with heldIn := false, tpFail := true }
  else { c with heldIn := false, tpFail := c.tpFail && chVital T j }

/-- The tile of a channel number 0-31 (R308). -/
def tileOfCh (n : Nat) : TileId := if n < 16 then .t0 else .t1

/-- The channels of either tile, by number 0-31, that are in EXT_FEED and whose node falls below 5 V in the dark pulse of
channel n: they are wired to it (R331). -/
def wiredTo (s : State) (g : GloveReading) (n : Nat) : List Nat :=
  (g.nodes.filter fun x =>
    x.1 < 32 && x.1 != n && (chan (tile s (tileOfCh x.1)) (x.1 % 16)).extFeed && x.2 < 5000).map (·.1)

/-- Two channels, by number, in WIRED with each other (R331). -/
def wire (n : Nat) (s : State) (m : Nat) : State :=
  let put (a b : Nat) (s : State) : State :=
    tilePut (tileOfCh a) (fun T => modChan T (a % 16) fun c => { c with wired := some b }) s
  put n m (put m n s)

/-- A test's findings in its own tile set (R328-R332). -/
def judge (t : TileId) (k f : Nat) (x : TestRun) (g : GloveReading) (T : Tile) : Tile :=
  let T1 := mapChans T fun j c =>
    if namesSource t T k j && c.heldIn then
      (if x.isVoid || !x.dark then { c with heldIn := false } else judgeInput T g j c)
    else c
  let T2 := modChan T1 k fun c => { c with testing := none }
  if x.isVoid then T2
  else if x.dark then modChan T2 k (judgeDark T2 f g)
  else modChan T2 k (judgeLight T2 f g)

/-- TEST_PULSE_END: the running test of a channel ends and is judged as the state in which it began has it (R328); it is void
if the reading or something that befell it in between says so (R330). -/
def testEnd (t : TileId) (k : Nat) (g : GloveReading) (s : State) : State :=
  match (chan (tile s t) k).testing with
  | none => s
  | some x0 =>
    let x := { x0 with isVoid := x0.isVoid || g.isVoid }
    let s1 := tilePut t (judge t k (senseGain s (chNum t k)) x g) s
    if x.isVoid || !x.dark then s1 else (wiredTo s1 g (chNum t k)).foldl (wire (chNum t k)) s1

/-- TEST_PULSE_END (R328). -/
def execTestPulseEnd (t : TileId) (ch : Nat) (g : GloveReading) (s : State) : Host.Outcome State Fault Refusal :=
  .next (whenOn s (testEnd t ch g))

/-- OUTPUT_OVERLOAD: the field side releases an output that is on (R331). -/
def outputOverload (t : TileId) (k : Nat) (s : State) : State :=
  if k < 16 && chMode (chWord (tile s t) k) == 2 && nodeOn s t k then
    tilePut t (fun T => modChan T k fun c => { c with overload := true, offSeen := false }) s
  else s

/-- OUTPUT_OVERLOAD (R331). -/
def execOutputOverload (t : TileId) (ch : Nat) (s : State) : Host.Outcome State Fault Refusal :=
  .next (whenOn s (outputOverload t ch))

/-- MITTEN_SOURCE_OVERLOAD: a source of a mitten tile is released until its next test slot (R316). -/
def sourceOverload (t : TileId) (k : Nat) (s : State) : State :=
  let T := tile s t
  if k < 16 && mitten T && chMode (chWord T k) == 3 && nodeOn s t k then
    tilePut t (fun T => modChan T k fun c => { c with overload := true }) s
  else s

/-- MITTEN_SOURCE_OVERLOAD (R316). -/
def execMittenSourceOverload (t : TileId) (ch : Nat) (s : State) : Host.Outcome State Fault Refusal :=
  .next (whenOn s (sourceOverload t ch))

/-! ## Cuffs (R333-R335) -/

/-- CUFF_OVERCURRENT: a closed cuff opens (R333). -/
def cuffOver (t : TileId) (g : Fin 2) (s : State) : State :=
  let b := g == 1
  if cuffShut s t b then tilePut t (fun T => modCuff T b fun q => { q with overcur := true }) s else s

/-- CUFF_OVERCURRENT (R333). -/
def execCuffOvercurrent (t : TileId) (g : Fin 2) (s : State) : Host.Outcome State Fault Refusal :=
  .next (whenOn s (cuffOver t g))

/-- A number added to a list that holds it once. -/
def addOnce (xs : List Nat) (x : Nat) : List Nat := if xs.contains x then xs else xs ++ [x]

/-- A LOST channel goes into every lane's journal (R311, R334). -/
def journalLoss (t : TileId) (k : Nat) (s : State) : State :=
  modLanes s allLanes fun _ L => { L with nv := { L.nv with lostCh := addOnce L.nv.lostCh (chNum t k) } }

/-- OUTPUT_UNSWITCHABLE: a commanded-off node above 5 V with more than 10 mA in a pair, read through the trim (R513). The seats
hold the group's cuff open for good and mark the channel LOST (R334). -/
def unswitchable (t : TileId) (k nodeMv pairMa : Nat) (s : State) : State :=
  let T := tile s t
  if T.fieldUp && k < 16 && chMode (chWord T k) == 2 && !mitten T && !commandedOn s t k && !(cuffOf T k).forGood &&
      5000 < nodeMv && 10 * 10000 < senseGain s (chNum t k) * pairMa then
    let b := groupOfCh k
    let s1 := tilePut t (fun T => modChan (modCuff T b fun q => { q with forGood := true }) k fun c =>
      { c with lost := true }) s
    modLanes (journalLoss t k s1) allLanes fun _ L =>
      { L with nv := { L.nv with cuffHeld := addOnce L.nv.cuffHeld (cuffNum t b) } }
  else s

/-- OUTPUT_UNSWITCHABLE (R334). -/
def execOutputUnswitchable (t : TileId) (ch : Nat) (nodeMv : Nat) (pairMa : Nat) (s : State) :
    Host.Outcome State Fault Refusal := .next (whenOn s (unswitchable t ch nodeMv pairMa))

/-- CUFF_READBACK_CHECK: 3 ms after the close command, a readback that shows open raises TILE_CUFF and CUFF_OPEN; one
that shows closed ends that (R335). -/
def cuffReadback (t : TileId) (g : Fin 2) (opened : Bool) (s : State) : State :=
  let b := g == 1
  if cuffShut s t b then
    let s1 := tilePut t (fun T => modCuff T b fun q => { q with openFlt := opened }) s
    if opened then
      event s1 [] 0x8016 (some (BitVec.ofNat 32 (tileNum t))) 0 0 (leBytes 1 (cuffNum t b))
    else s1
  else s

/-- CUFF_READBACK_CHECK (R335). -/
def execCuffReadbackCheck (t : TileId) (g : Fin 2) (showsOpen : Bool) (s : State) :
    Host.Outcome State Fault Refusal := .next (whenOn s (cuffReadback t g showsOpen))

/-! ## Field supply (R316, R336) -/

/-- The LPLUS code of an average in mV (R336, R341). -/
def lplusOf (mittenRail : Bool) (mv : Nat) : Nat :=
  if mittenRail then (if 20000 ≤ mv then 0 else 2) else if 19200 ≤ mv then 0 else if 15000 ≤ mv then 1 else 2

/-- The group has a vital output channel. -/
def vitalOutputs (T : Tile) (b : Bool) : Bool :=
  (List.range 8).any fun k => chMode (chWord T (8 * b.toNat + k)) == 2 && chVital T (8 * b.toNat + k)

/-- Below 15 V a test in progress of the group is void (R344). -/
def sagTests (b : Bool) (mv : Nat) (T : Tile) : Tile :=
  if mv < 15000 then mapChans T fun k c => if groupOfCh k == b then voidTest c else c else T

/-- A cuff group's supply after an average (R336). -/
def sagCuff (vital : Bool) (now mv : Nat) (q : Cuff) : Cuff :=
  { q with mv := mv, code := lplusOf false mv,
           low := if mv < 19200 then true else if 19700 ≤ mv then false else q.low,
           sag := q.sag || (vital && mv < 15000),
           okSince := if 19200 ≤ mv then some (q.okSince.getD now) else none,
           release := if mv < 15000 then true else if 19200 ≤ mv then false else q.release }

/-- The field side stops with both inputs below 12 V, and starts again without its count and commands, with a temperature
measured anew (R336, R341). -/
def fieldPower (temp : Int) (T : Tile) : Tile :=
  let up := 12000 ≤ T.cuffs.a.mv || 12000 ≤ T.cuffs.b.mv
  if up = T.fieldUp then T
  else modDrives { T with fieldUp := up, fieldTemp := temp, fieldRound := none, boundary := none } fun _ => {}

/-- LPLUS_SAG: an L+ average. In mitten mode the first group's reading is the rail, and the second's the highest voltage
on the L+ lands (R316, R336). -/
def sag (t : TileId) (g : Fin 2) (mv : Nat) (s : State) : State :=
  let b := g == 1
  let now := s.grp.groupTime.toNat
  tilePut t (fun T =>
    if mitten T then
      if b then { T with stray := 5000 < mv } else modCuff T false fun q => { q with mv := mv, code := lplusOf true mv }
    else fieldPower (Config.fieldTemp (2 * s.free + tileNum t))
      (sagTests b mv (modCuff T b (sagCuff (vitalOutputs T b) now mv)))) (useFree s)

/-- LPLUS_SAG (R336). -/
def execLplusSag (t : TileId) (g : Fin 2) (mv : Nat) (s : State) : Host.Outcome State Fault Refusal :=
  .next (whenOn s (sag t g mv))

/-- FIELD_TEMP_MEASUREMENT (R341). -/
def execFieldTempMeasurement (t : TileId) (tempC : Int) (s : State) : Host.Outcome State Fault Refusal :=
  .next (whenOn s fun s => modTile s t fun T => if T.fieldUp then { T with fieldTemp := tempC } else T)

/-! ## Couplers (R309-R311) -/

/-- COUPLER_FAILURE: the spare is switched in; a failure with the spare in use makes the channel LOST (R310, R311). A test in
progress of the channel is void (R330). -/
def couplerFail (t : TileId) (k cp : Nat) (s : State) : State :=
  let c := chan (tile s t) k
  if 16 ≤ k || 8 ≤ cp || c.lost || c.failCpl.contains cp || c.spareCpl == some cp || !(tile s t).fieldUp then s
  else if c.spareCpl.isSome || !c.failCpl.isEmpty then
    journalLoss t k (tilePut t (fun T => modChan T k fun c => voidTest { c with lost := true }) s)
  else tilePut t (fun T => modChan T k fun c => voidTest { c with failCpl := [cp] }) s

/-- COUPLER_FAILURE (R310). -/
def execCouplerFailure (t : TileId) (ch : Nat) (cp : Nat) (s : State) : Host.Outcome State Fault Refusal :=
  .next (whenOn s (couplerFail t ch cp))

/-- COUPLER_SPARE_SWITCHED: the spare stands in for the failed coupler, and an event tells of it (R310). -/
def couplerSwitched (t : TileId) (k : Nat) (s : State) : State :=
  match (chan (tile s t) k).failCpl with
  | [cp] =>
    if cp < 7 && k < 16 then
      event (tilePut t (fun T => modChan T k fun c => { c with failCpl := [], spareCpl := some cp }) s) [] 0x8015
        (some (BitVec.ofNat 32 (tileNum t))) 0 0 (leBytes 1 (chNum t k) ++ leBytes 1 cp)
    else s
  | _ => s

/-- COUPLER_SPARE_SWITCHED (R310). -/
def execCouplerSpareSwitched (t : TileId) (ch : Nat) (s : State) : Host.Outcome State Fault Refusal :=
  .next (whenOn s (couplerSwitched t ch))

/-! ## TILE_RESET at its boundary (R342) -/

/-- A channel after TILE_RESET. -/
def resetChan (T : Tile) (k : Nat) (c : Chan) : Chan :=
  { c with tpFail := c.tpFail && !chVital T k,
           chatter := c.chatter && !((chWord T k).getLsbD 7 && 1 ≤ c.calm),
           glove := false, extFeed := false, wired := none }

/-- A cuff group after TILE_RESET at a group time. -/
def resetCuff (now : Nat) (q : Cuff) : Cuff :=
  { q with overcur := false, sag := q.sag && !(q.okSince.any fun a => a + 1000 ≤ now) }

/-- The functions that read a channel of a tile are in PROOF_D (R342, R358). -/
def proveTile (t : TileId) (L : Lane) : Lane :=
  let on (p : Nat) : Bool := (chanOfPoint L.cfg p).any fun k => k / 16 == tileNum t
  let fs := L.cfg.fns.filter fun f => on f.chA || on f.chB
  { L with fns := fs.foldl (fun (t : Tbl FnRun) f => tblSet t f.fn (fnProof (tblGetD t f.fn {}))) L.fns }

/-- A lane no longer sees the states that a tile's channels have left: it holds off nothing on their account, so outputs return
to their commands at the next strobe (R342). -/
def forgetStates (t : TileId) (T : Tile) (L : Lane) : Lane :=
  setSnap t ((laneSnap t L).map fun z =>
    { z with chans := z.chans.mapIdx fun k c => { c with conds := c.conds.filter (chStates T k).contains } }) L

/-- TILE_RESET takes effect (R342). -/
def tileResetAt (t : TileId) (s : State) : State :=
  let now := s.grp.groupTime.toNat
  let s1 := tilePut t (fun T => { mapChans T (resetChan T) with
    cuffs := ⟨resetCuff now T.cuffs.a, resetCuff now T.cuffs.b⟩ }) s
  modLanes s1 (runLanes s1) fun _ L => proveTile t (forgetStates t (tile s1 t) L)

end Sys2Proof.Machine
end

