-- ==== Sys2Proof/Machine/Join.lean ====
section
/-! DEFINITION. Comparison over the straits (R72-R79), joins, reverts and rotations (R82-R98, R103), pace (R32-R34). -/

namespace Sys2Proof.Machine

open Sys2Proof

/-! ## Comparison (R73-R79) -/

/-- The seat map under which a cycle of a context ran: for a cycle that started before the latest seating, the map of
that time (R72, R75, R88). -/
def mapOf (s : State) (ctx : Nat) (cyc : DWord) : SeatMap :=
  let start := match ctxCfg? s.grp.cfg ctx with
    | some x => cycleRound x cyc.toNat
    | none => cyc.toNat
  if start < s.grp.seatedAt then s.grp.prevSeats else s.grp.seats

/-- The lane that sent a contribution: the one that held its seat in its cycle. -/
def senderOf (s : State) (cb : Contribution) : Option LaneId := seatLane (mapOf s cb.ctx cb.cyc) cb.seat

/-- A contribution that a joiner in its shadow cycle has sent, and no seat: it is not voted (R87). -/
def fromJoiner (s : State) (cb : Contribution) : Bool :=
  match s.grp.join with
  | none => false
  | some j =>
    s.grp.transit.contains (.contribution j.joiner cb) &&
      !(senderOf s cb).any fun k => s.grp.transit.contains (.contribution k cb)

/-- Contributions between two seats are relayed by the third: seats 1 and 3 with three seats filled (R73), and any two
whose strait has failed (R74). -/
def relayedPair (s : State) (m : SeatMap) (a b : SeatId) : Bool :=
  m.s1.isSome && m.s2.isSome && m.s3.isSome &&
    ((a == .s1 && b == .s3) || (a == .s3 && b == .s1) ||
      ((seatLane m a).any fun x => (seatLane m b).any fun y => straitFailed s.grp x y))

/-- A lane asks a sender for a contribution again; the sender sends it once more over the direct strait, or by relay where
that has failed (R73, R74). -/
def askAgain (s : State) (l k : LaneId) (ctx : Nat) (cyc : DWord) (st : SeatId) : State :=
  if !linked s l k || (lane s l).resend.contains (ctx, cyc, st) then s
  else
    let s1 := modLane s l fun L => { L with resend := L.resend ++ [(ctx, cyc, st)] }
    let again := (lane s k).own.filter fun c => c.ctx == ctx && c.cyc == cyc
    again.foldl (fun s c => sendOut k (contribItems c) (fun s => modGrp s fun g => sendMsg g (.contribution k c)) s)
      (say l (.resend l st ctx cyc) s1)

/-- The contribution of a seat for a cycle replaced by another. -/
def putContrib (cb : Contribution) (cs : List Contribution) : List Contribution :=
  (cs.filter fun x => !(x.ctx == cb.ctx && x.cyc == cb.cyc && x.seat == cb.seat)) ++ [cb]

/-- The words of a contribution a lane takes in (R35). -/
def contribIn (cb : Contribution) : List DWord := (bytesWords (contribBytes cb) ++ [cb.code]).map fun w => w.setWidth 64

/-- CONTRIBUTION_RECEIVED by a seated lane: kept when its code holds; a relayed one that fails is asked for again (R73).
A sender the lane
disregards is not heard (R45), nor one it has no way to (R74). -/
def contribReceived (l : LaneId) (cb : Contribution) (relayed : Bool) (s : State) : State :=
  let L := lane s l
  let m := mapOf s cb.ctx cb.cyc
  match seatOf m l, senderOf s cb with
  | some mine, some k =>
    if k = l || L.fenced || L.disregard.contains k || fromJoiner s cb || !linked s l k then s
    else if cb.code = contribCode L.cfg cb then
      setLane s l <| takesIn (contribIn cb) { L with
        contribs := putContrib cb L.contribs
        resend := L.resend.filter (· != (cb.ctx, cb.cyc, cb.seat)) }
    else if relayed && relayedPair s m mine cb.seat then
      askAgain (modLane s l (takesIn (contribIn cb))) l k cb.ctx cb.cyc cb.seat
    else s
  | _, _ => s

/-- CONTRIBUTION_RECEIVED (R73). -/
def execContributionReceived (l : LaneId) (cb : Contribution) (relayed : Bool) (s : State) :
    Host.Outcome State Fault Refusal := .next (whenOn s (contribReceived l cb relayed))

/-- A lane holds a seat's contribution for a cycle. -/
def holdsContrib (L : Lane) (ctx : Nat) (cyc : DWord) (st : SeatId) : Option Contribution :=
  L.contribs.find? fun x => x.ctx == ctx && x.cyc == cyc && x.seat == st

/-- CONTRIBUTION_RETRY_TIMEOUT: a relayed contribution has not come 100 µs after it was sent (R73). -/
def contribRetry (l : LaneId) (ctx : Nat) (cyc : DWord) (st : SeatId) (s : State) : State :=
  let m := mapOf s ctx cyc
  match seatOf m l, seatLane m st with
  | some mine, some k =>
    if relayedPair s m mine st && (holdsContrib (lane s l) ctx cyc st).isNone &&
        (lane s k).own.any (fun c => c.ctx == ctx && c.cyc == cyc) then askAgain s l k ctx cyc st
    else s
  | _, _ => s

/-- CONTRIBUTION_RETRY_TIMEOUT (R73). -/
def execContributionRetryTimeout (l : LaneId) (ctx : Nat) (cyc : BitVec 64) (seat : SeatId) (s : State) :
    Host.Outcome State Fault Refusal := .next (whenOn s (contribRetry l ctx cyc seat))

/-- The destination of the first outbound word in which two contributions differ; none gives 0xFFFF (R531). -/
def firstDiffer : List (Nat × Word) → List (Nat × Word) → Nat
  | a :: r, b :: q => if a = b then firstDiffer r q else a.1
  | a :: _, [] => a.1
  | [], b :: _ => b.1
  | [], [] => 0xFFFF

/-- The other filled seats. -/
def otherSeats (m : SeatMap) (st : SeatId) : List SeatId := allSeats.filter fun x => x != st && (seatLane m x).isSome

/-- The other seats whose contribution agrees with a lane's own (R75). -/
def agreeing (L : Lane) (m : SeatMap) (mine : Contribution) : List SeatId :=
  (otherSeats m mine.seat).filter fun x =>
    (holdsContrib L mine.ctx mine.cyc x).any fun c => cbAgrees c mine

/-- Where the lane's own contribution first differs from one it holds. -/
def differAt (L : Lane) (m : SeatMap) (mine : Contribution) : Nat :=
  match (otherSeats m mine.seat).findSome? fun x =>
      (holdsContrib L mine.ctx mine.cyc x).filter fun c => c.words != mine.words with
  | some c => firstDiffer mine.words c.words
  | none => 0xFFFF

/-- A lane accuses the lane of a seat (R75), over its straits, once its window has compared equal (R41); two lanes that accuse each other in one cycle end in SAFE (R103). -/
def accuse (s : State) (l : LaneId) (mine named : SeatId) (timeBase : Bool) : State :=
  let y := vitalCycle s
  let both := s.grp.accuseLog.any fun x => x.2.2 == y && x.2.1 == mine && seatLane s.grp.seats named == some x.1
  let s0 := say l (.accuse l named timeBase) s
  if (lane s0 l).fenced then s0
  else
    let s1 := modGrp s0 fun g => { g with accuseLog := g.accuseLog ++ [(l, named, y)] }
    if both then enterSafe s1 3 else s1

/-- The lane of a seat in a cycle takes part in its comparison: it has not fenced since (R45), and no debugger halts it
(R55). -/
def takesPart (s : State) (m : SeatMap) (x : SeatId) : Bool :=
  (seatLane m x).any fun k => !(lane s k).fenced && (lane s k).nv.retire == 0 && !(lane s k).dbg.halted

/-- COMPARISON_DEADLINE of a lane for a cycle of a vital context (R75-R77): the seats are those of the cycle, also for the
last cycle before a seating. A cycle that two seats ran is compared as in DEGRADED (log 107). A seat whose lane is halted
is missing without a fence (R55). -/
def comparison (l : LaneId) (ctx : Nat) (cyc : DWord) (s : State) : State :=
  let L := lane s l
  let m := mapOf s ctx cyc
  match seatOfLane s l, L.own.find? fun x => x.ctx == ctx && x.cyc == cyc with
  | some now, some mine =>
    let old (x : Contribution) : Bool := x.ctx == ctx && x.cyc == cyc
    let s1 := setLane s l { L with own := L.own.filter fun x => !old x, contribs := L.contribs.filter fun x => !old x }
    let others := (otherSeats m mine.seat).filter (takesPart s m)
    let good := (agreeing L m mine).filter (takesPart s m)
    if L.fenced || seatOf m l ≠ some mine.seat || !groupRuns s.grp || L.dbg.halted then s1
    else if s.grp.gst = .degraded || (seatedLanes m).length = 2 then
      if good.length = others.length && (!others.isEmpty || anyHalted s) then s1 else enterSafe s1 2
    else match others.filter fun x => !good.contains x, good with
      | [], _ => s1
      | [x], [_] =>
        match (seatLane m x).bind (seatOfLane s) with
        | some named => accuse s1 l now named false
        | none => s1
      | _, _ => fence s1 l 2 ctx cyc (differAt L m mine)
  | _, _ => s

/-- COMPARISON_DEADLINE (R75). -/
def execComparisonDeadline (l : LaneId) (ctx : Nat) (cyc : BitVec 64) (s : State) :
    Host.Outcome State Fault Refusal := .next (whenOn s (comparison l ctx cyc))

/-- ACCUSATION_RECEIVED: a seated lane whose own seat is named fences; so does a joiner whose seat to come is named in an
accusation sent to it (R76, R91, R209). -/
def accused (l sender : LaneId) (named : SeatId) (timeBase : Bool) (s : State) : State :=
  let cause := if timeBase then 4 else 2
  let s1 := modLane s l (takesIn [inWord (seatNum named + 4 * timeBase.toNat)])
  if l = sender || !isSeated s sender || (lane s l).disregard.contains sender || !groupRuns s.grp ||
      !linked s l sender then s
  else if seatOfLane s l = some named then fence s1 l cause 0 (vitalCycle s) 0xFFFF
  else match s.grp.join with
    | some j =>
      if j.joiner = l && seatOf (joinMap s j) l = some named then
        joinFailed s1 (if timeBase then 4 else 7)
      else s1
    | none => s1

/-- ACCUSATION_RECEIVED (R76). -/
def execAccusationReceived (l : LaneId) (sender : LaneId) (named : SeatId) (timeBase : Bool) (s : State) :
    Host.Outcome State Fault Refusal := .next (whenOn s (accused l sender named timeBase))

/-- FENCE_MESSAGE_RECEIVED: the lane disregards the sender's signature and outbound words (R45). -/
def fenceHeard (l sender : LaneId) (s : State) : State :=
  if l = sender || !linked s l sender then s
  else
    let st := (tblGet s.grp.before (laneNum sender)).bind fun m => seatOf m sender
    modLane s l fun L =>
      takesIn [inWord (laneNum sender)] { L with
        disregard := if L.disregard.contains sender then L.disregard else L.disregard ++ [sender]
        contribs := L.contribs.filter fun c => st != some c.seat }

/-- FENCE_MESSAGE_RECEIVED (R45). -/
def execFenceMessageReceived (l : LaneId) (sender : LaneId) (s : State) : Host.Outcome State Fault Refusal :=
  .next (whenOn s (fenceHeard l sender))

/-- COMPARATOR_PROVING of a seated lane whose turn it is, by the rota of R78 or after an accusation (R79), as background
work (R22): a comparator that does not report the injected disagreement, or a wrong known share or station code, is a
pair mismatch (R78, R566). -/
def proving (l : LaneId) (reported : Bool) (share : Word) (stationOk : Bool) (s : State) : State :=
  match seatOfLane s l with
  | none => s
  | some st =>
    let L := lane s l
    let known := (L.cfg.knownAns[seatNum st - 1]?).getD 0
    if !L.prove || !bgTurn s l 3 then s
    else if reported && share == known && stationOk then setLane s l { L with prove := false }
    else
      let (c, y) := curCtxCyc L
      fence (setLane s l { L with prove := false, mismatch := min 255 (L.mismatch + 1) }) l 1 c y 0xFFFF

/-- The rota of comparator proving at a boundary that starts a cycle of the longest vital context (R78, R79): after each
10 s step the lane in seat 1, in the next two cycles those in seats 2 and 3; and every lane whose accused lane was cleared
since the last boundary. -/
def provingRota (s : State) : State :=
  let g := s.grp
  let step := g.groupTime.toNat / 100000
  let due : Option SeatId := if g.proveStep < step then some .s1
    else if g.proveNext = 2 then some .s2 else if g.proveNext = 3 then some .s3 else none
  let next := if g.proveStep < step then 2 else if g.proveNext = 2 then 3 else 0
  let s1 := modGrp s fun g => { g with proveStep := step, proveNext := next }
  modLanes s1 (seated s1) fun l L =>
    { L with prove := L.prove || L.proveSoon || seatOfLane s1 l == due && due.isSome, proveSoon := false }

/-- COMPARATOR_PROVING (R78). -/
def execComparatorProving (l : LaneId) (reported : Bool) (share : BitVec 32) (stationOk : Bool) (s : State) :
    Host.Outcome State Fault Refusal := .next (whenOn s (proving l reported share stationOk))

/-- A strait's name: the lower-numbered lane first. -/
def straitOf (a b : LaneId) : LaneId × LaneId := if laneNum a < laneNum b then (a, b) else (b, a)

/-- STRAIT_LINK_FAIL: the first failure moves the strait to its spare wire set, the next marks it failed; both lanes
report it (R74). -/
def straitFails (a b : LaneId) (s : State) : State :=
  if a = b || straitFailed s.grp a b then s
  else
    let x := straitOf a b
    let spare := s.grp.straitSpare.contains x
    let note := if spare then 4 else 3
    let s1 := modGrp s fun g =>
      if spare then { g with straitFail := g.straitFail ++ [x] } else { g with straitSpare := g.straitSpare ++ [x] }
    let s2 := laneNote (laneNote s1 a note (leBytes 1 (laneNum b))) b note (leBytes 1 (laneNum a))
    refreshGst s2 3

/-- STRAIT_LINK_FAIL (R74). -/
def execStraitLinkFail (a : LaneId) (b : LaneId) (s : State) : Host.Outcome State Fault Refusal :=
  .next (whenOn s (straitFails a b))

/-! ## Pace (R32-R34) -/

/-- Pace in M ops/s from committed operations and 50 ns ticks of active time, rounded down. -/
def paceOf (ops ticks : Nat) : Nat := ops * 20 / ticks

/-- Ticks of 50 ns in 10 ms. -/
def paceMin : Nat := 200000

/-- PACE_MEASUREMENT: the pace of an interval from every operation M has committed in it, those of function-block code
and `execOps` of the executive and the self-tests, of the probe loop with it where less than 10 ms were active; PACE_LOW
(R32-R34). -/
def paceMeasured (l : LaneId) (activeTicks execOps probeOps probeTicks : Nat) (s : State) : State :=
  let L := lane s l
  let ops := L.opsCount + execOps
  let pace := if activeTicks < paceMin then paceOf (ops + probeOps) (activeTicks + probeTicks)
    else paceOf ops activeTicks
  let good := if pace < 470 then 0 else min 3 (L.paceGood + 1)
  setLane s l { L with pace := pace, opsCount := 0, paceGood := good,
                       paceLow := if pace < 470 then true else L.paceLow && good < 3 }

/-- PACE_MEASUREMENT (R32). -/
def execPaceMeasurement (l : LaneId) (active : PaceTime) (probeOps : Nat) (probeTicks : Nat) (s : State) :
    Host.Outcome State Fault Refusal := .next (whenOn s (paceMeasured l active.ticks active.execOps probeOps probeTicks))

/-! ## The steps of a join (R83-R91) -/

/-- The copy sources of a join: the seated lanes that keep their seats, by seat number; over a failed strait the other
source sends both ranges (R83, R90). -/
def joinSources (s : State) (j : Join) : Option (LaneId × LaneId) :=
  let keep := (seated s).filter fun l => j.leaver != some l
  let ok (l : LaneId) : Bool := !straitFailed s.grp l j.joiner
  match keep with
  | a :: b :: _ =>
    if ok a && ok b then some (a, b) else if ok a then some (a, a) else if ok b then some (b, b) else none
  | _ => none

/-- JOIN_ANNOUNCE_RECEIVED: the sources are fixed (R84 step 4). -/
def joinAnnounced (k : LaneId) (s : State) : State :=
  match s.grp.join with
  | some j =>
    if j.joiner = k && j.step = 4 then
      match joinSources s j with
      | some (a, b) => modGrp (modLanes s (seated s) fun _ L => takesIn [inWord (laneNum k)] L) fun g => { g with join := some { j with step := 5, srcLo := some a, srcHi := some b } }
      | none => s
    else s
  | none => s

/-- JOIN_ANNOUNCE_RECEIVED (R84). -/
def execJoinAnnounceReceived (joiner : LaneId) (s : State) : Host.Outcome State Fault Refusal :=
  .next (whenOn s (joinAnnounced joiner))

/-- A lane's memory with what waits to leave (R41, R85). -/
def wholeMem (L : Lane) : Mem := (flushStores L).mem

/-- The state at the join boundary as the two sources send it (R83, R85). -/
def snapMem (s : State) (j : Join) : Mem :=
  match j.srcLo, j.srcHi with
  | some a, some b => memRange (wholeMem (lane s a)) 0x200000 0x440000 ++ memRange (wholeMem (lane s b)) 0x440000 0x680000
  | _, _ => []

/-- The tasks with their registers as a source sends them: those suspended in phase L at the boundary (R85). -/
def snapTasks (s : State) (j : Join) : List Task :=
  match j.srcLo with
  | some a => (lane s a).cur.toList ++ (lane s a).susp
  | none => []

/-- The replicated executive state that travels with the snapshot (R85). -/
def snapExec (s : State) (j : Join) : ExecSnap :=
  match j.srcLo with
  | some a =>
    let L := lane s a
    { ctxs := L.ctxs, fns := L.fns, drvs := L.drvs, stn := L.stn, map := L.map }
  | none => {}

/-- The 4 KiB blocks of a copy (R83, R85). -/
def copyBlocks : List Nat := (List.range 0x480).map (0x200 + ·)

/-- The join at the boundary of round r (R84 steps 5, 8): the snapshot at a join boundary, or the shadow cycle's start. A
source that is no longer seated is replaced (R103). -/
def joinBoundary (r : DWord) (s : State) : State :=
  match s.grp.join with
  | none => s
  | some j =>
    if !vitalStartsAt s.grp.cfg r.toNat then s
    else if j.step = 5 then
      match joinSources s j with
      | none => s
      | some (a, b) =>
        let j1 := { j with srcLo := some a, srcHi := some b }
        modGrp s fun g => { g with join := some { j1 with step := 6, b := r, snap := snapMem s j1,
                                                          snapTasks := snapTasks s j1,
                                                          snapExec := snapExec s j1, unsent := copyBlocks, staged := [] } }
    else if j.step = 8 then
      modGrp s fun g => { g with join := some { j with step := 9, shadowAt := r, shadowOk := true } }
    else s

/-- STAGED_STORE_RESUME: a staged block of a source has left (R85). -/
def stagedLeft (l : LaneId) (block : Nat) (s : State) : State :=
  match s.grp.join with
  | none => s
  | some j =>
    if j.step = 6 && j.staged.contains block && srcOf j block = some l then
      resumeStore (modGrp s fun g =>
        { g with join := some { j with staged := j.staged.filter (· != block), unsent := j.unsent.filter (· != block) } }) l
    else s

/-- STAGED_STORE_RESUME (R85). -/
def execStagedStoreResume (l : LaneId) (block : Nat) (s : State) : Host.Outcome State Fault Refusal :=
  .next (whenOn s (stagedLeft l block))

/-- JOIN_COPY_COMPLETE: the joiner holds the state of the join boundary (R84 step 6, R85). -/
def copyDone (s : State) : State :=
  match s.grp.join with
  | none => s
  | some j =>
    if j.step = 6 then
      let j1 := { j with step := 7, unsent := [], staged := [], snap := [], snapTasks := [], snapExec := {} }
      let e := j.snapExec
      let s1 := modGrp s fun g => { g with join := some j1 }
      let s2 := modLane s1 j.joiner fun L =>
        { L with mem := memCopy L.mem j.snap 0x200000 0x680000, outBuf := [], cur := none, susp := j.snapTasks,
                 ctxs := e.ctxs, fns := e.fns, drvs := e.drvs, stn := e.stn, map := e.map }
      (j.srcLo.toList ++ j.srcHi.toList).foldl resumeStore s2
    else s

/-- JOIN_COPY_COMPLETE (R85). -/
def execJoinCopyComplete (s : State) : Host.Outcome State Fault Refusal := .next (whenOn s copyDone)

/-- The joiner in step with a seated lane: the same instance data, process image, tasks and executive state, which is what
its replay of every cycle since the join boundary computes (R86, log 36). What it takes in itself since step 4, the
uplinks and tile snapshots, is its own (R84, R86). -/
def inStep (src L : Lane) : Lane :=
  { L with mem := memCopy L.mem (wholeMem src) 0x200000 0x680000, outBuf := [], cfg := src.cfg, cur := src.cur,
           susp := src.susp, kCur := src.cur, ctxs := src.ctxs, fns := src.fns, drvs := src.drvs, stn := src.stn, map := src.map,
           own := [], contribs := [], power := .active }

/-- CATCH_UP_COMPLETE: the joiner has run every cycle since the join boundary (R84 step 7, R86). -/
def caughtUp (s : State) : State :=
  match s.grp.join with
  | none => s
  | some j =>
    match j.step, j.srcLo with
    | 7, some a =>
      modGrp (modLane s j.joiner (inStep (lane s a))) fun g => { g with join := some { j with step := 8 } }
    | _, _ => s

/-- CATCH_UP_COMPLETE (R86). -/
def execCatchUpComplete (s : State) : Host.Outcome State Fault Refusal := .next (whenOn s caughtUp)

/-- CATCH_UP_DEADLINE: a joiner that has not ended catch-up fails the join (R89, R91). -/
def catchUpLate (s : State) : State :=
  match s.grp.join with
  | none => s
  | some j => if j.step ≤ 7 then joinFailed s 7 else s

/-- CATCH_UP_DEADLINE (R89). -/
def execCatchUpDeadline (s : State) : Host.Outcome State Fault Refusal := .next (whenOn s catchUpLate)

/-! ## Seating (R68, R71, R88, R93-R96) -/

/-- A switch-over gap in whole ms, rounded up (R104). -/
def gapMs (us : Nat) : Nat := min 255 ((us + 999) / 1000)

/-- The group at a seating at group time `now`: canonical seats, the lane that leaves as spare, the gap from the fence that
left the seat vacant (R88), and what each kind of join settles. -/
def seatGroup (j : Join) (m : SeatMap) (now : Nat) (g : Group) : Group :=
  let g1 := { g with
    seats := m, prevSeats := g.seats, seatedAt := g.round.toNat, join := none, spare := j.leaver, before := tblDel g.before (laneNum j.joiner),
    holdoff := g.holdoff.filter (· != j.joiner), standIn := tblDel g.standIn (laneNum j.joiner) }
  let g2 := if j.kind = .fault then
      let (t0, u0) := g.gapFrom.getD (j.start, j.startUs)
      { g1 with lastGap := gapMs (spanUs t0 u0 now 0), gapFrom := none, vacant := none,
                standIn := match g.vacant with
                  | some v => if v = j.joiner then g1.standIn else tblSet g1.standIn (laneNum v) j.joiner
                  | none => g1.standIn }
    else g1
  if j.kind = .rotation then { g2 with rotFrom := now, rotRetry := none, rotDeferred := false, rotD06 := false } else g2

/-- The joiner takes its seat (R71, R88, R94). -/
def seatLaneIn (now : Nat) (L : Lane) : Lane :=
  { L with st := .seated, gatesOn := true, hubWords := true, fenced := false, disregard := [],
           reverts := if L.returning then L.reverts ++ [now] else L.reverts, returning := false }

/-- The lane that leaves its seat becomes the spare (R88). -/
def leaveSeat (now : Nat) (L : Lane) : Lane :=
  { L with st := .sparePaired, gatesOn := false, gates := ⟨none, none⟩, cur := none, susp := [], kCur := none, spareSince := now,
           own := [], contribs := [], prove := false, proveSoon := false, wait := none }

/-- The seating that ends a join at a boundary (R88): the record, the group event, the rotation's outcome. -/
def seatJoiner (j : Join) (s : State) : State :=
  let now := s.grp.groupTime.toNat
  let m := joinMap s j
  let s1 := shareMap (modGrp s (seatGroup j m now))
  let s2 := modLane s1 j.joiner (seatLaneIn now)
  let s3 := match j.leaver with
    | some k => modLane s2 k (leaveSeat now)
    | none => s2
  let s4 := modLanes s3 allLanes fun _ L =>
    { L with disregard := L.disregard.filter (· != j.joiner), nv := { L.nv with spareRec := j.leaver } }
  let s5 := joinEndRecord s4 j 0 0 0
  let s6 := match j.tag with
    | some (h, tag) => outcome s5 h tag stOk (leBytes 8 (groupWordOf s5).toNat)
    | none => s5
  refreshOp (settle s6 4)

/-- A shadow cycle that ends at the boundary of round r (R84 step 9, R87, R91). -/
def shadowEnd (r : DWord) (s : State) : State :=
  match s.grp.join with
  | none => s
  | some j =>
    if j.step = 9 && j.shadowAt.toNat + tRounds s.grp.cfg ≤ r.toNat then
      if j.shadowOk then seatJoiner j s else joinFailed s 7
    else s

/-! ## Reverts and rotation (R93-R98) -/

/-- The two conditions of a revert join (R93): the seated set differs from the one before the fence in the stand-in
alone, and that lane stood in for this one. -/
def revertSeat (s : State) (l : LaneId) : Option LaneId :=
  match tblGet s.grp.before (laneNum l), tblGet s.grp.standIn (laneNum l) with
  | some m, some k =>
    if s.grp.spare = some l && isSeated s k &&
        (seated s).all fun x => x == k || (seatedLanes m).contains x then some k
    else none
  | _, _ => none

/-- An update activation is stamped less than 10 s ahead (R97, R103). -/
def activationSoon (s : State) : Bool :=
  s.grp.actAt.any fun r => (r.toNat - s.grp.round.toNat) * roundTicks s < 100000

/-- Nothing delays a revert or rotation whose own conditions hold (R55, R97, R103). -/
def mayMove (s : State) : Bool :=
  s.grp.join.isNone && s.mod.op != .recovery && !activationSoon s && !anyHalted s && s.grp.gst == .full

/-- A revert that is due: made, delayed, or given up (R93, R103). -/
def tryRevert (l : LaneId) (s : State) : State :=
  match revertSeat s l with
  | none =>
    modLane (modGrp s fun g => { g with revertDue := none, before := tblDel g.before (laneNum l) }) l fun L =>
      { L with prefSeat := 0 }
  | some k =>
    if mayMove s && mayJoinFor s l (some k) then joinStart (modGrp s fun g => { g with revertDue := none }) .revert l (some k) none
    else modGrp s fun g => { g with revertDue := some l }

/-- REVERT_HOLDOFF_EXPIRY (R93). -/
def holdoffEnd (l : LaneId) (s : State) : State :=
  if s.grp.holdoff.contains l then
    tryRevert l (modGrp s fun g => { g with holdoff := g.holdoff.filter (· != l) })
  else s

/-- REVERT_HOLDOFF_EXPIRY (R93). -/
def execRevertHoldoffExpiry (l : LaneId) (s : State) : Host.Outcome State Fault Refusal :=
  .next (whenOn s (holdoffEnd l))

/-- The lane that a rotation makes spare: the next one after the spare in lane order that is not retired (R96). -/
def rotationLane (s : State) : Option LaneId :=
  match s.grp.spare with
  | none => none
  | some p => ([1, 2, 3].filterMap fun i => laneOf? ((laneNum p + i) % 4)).find? fun l => (lane s l).nv.retire == 0

/-- The conditions of R97 and R55. -/
def rotationOk (s : State) : Bool :=
  mayMove s && s.mod.op == .service && s.grp.holdoff.isEmpty && s.grp.revertDue.isNone &&
    (s.grp.spare.any fun l => mayJoinFor s l (rotationLane s)) && (rotationLane s).any fun l => isSeated s l

/-- A rotation starts (R96, R98). -/
def startRotation (s : State) (tag : Option (HubId × Word)) : State :=
  match s.grp.spare, rotationLane s with
  | some l, some k => joinStart s .rotation l (some k) tag
  | _, _ => s

/-- The rotation period has run out, or 24 h since a failed one (R96). -/
def rotationIsDue (s : State) : Bool :=
  let now := s.grp.groupTime.toNat
  match s.grp.rotRetry with
  | some t => t ≤ now
  | none => s.grp.rotFrom + s.grp.settings.rotDays * ticks24h ≤ now

/-- ROTATION_DUE: started, or deferred (R97). -/
def rotationDue (s : State) : State :=
  if !rotationIsDue s || !groupRuns s.grp then s
  else if rotationOk s then startRotation s none
  else modGrp s fun g => { g with rotDeferred := true, rotD06 := false }

/-- ROTATION_DUE (R96). -/
def execRotationDue (s : State) : Host.Outcome State Fault Refusal := .next (whenOn s rotationDue)

/-- What waited for the end of a join, of RECOVERY or of an activation (R97, R103). -/
def retryMoves (s : State) : State :=
  let s1 := match s.grp.revertDue with
    | some l => if mayMove s then tryRevert l s else s
    | none => s
  if s1.grp.rotDeferred && rotationIsDue s1 && rotationOk s1 then startRotation s1 none else s1

end Sys2Proof.Machine
end

