-- ==== Sys2Proof/Machine/Time.lean ====
section
/-! DEFINITION. Time bases and their checks (R199-R212), and the scrub of the lane SRAM (R385-R388). -/

namespace Sys2Proof.Machine

open Sys2Proof

/-! ## Time bases (R199-R203) -/

/-- The range of the factory layer: ±300 ppm, in 0.01 ppm (R199). -/
def compClamp (x : Int) : Int := max (-30000) (min 30000 x)

/-- The trim of a lane in the sealed configuration, in 0.01 ppm: the same for whichever oscillator is active (R200). -/
def trimOf (l : LaneId) (c : Cfg) : Int := (c.trims[laneNum l]?).getD 0

/-- The rate of a lane's compensated time base, layers 1 and 2, in 0.01 ppm (R199, R200). -/
def compRate (l : LaneId) (L : Lane) : Int := (if L.tb.onSpare then L.tb.comp1 else L.tb.comp0) + trimOf l L.cfg

/-- The three layers summed up in the lane's rate (R199). -/
def setRate (l : LaneId) (L : Lane) : Lane := { L with tb := { L.tb with rate := compRate l L + 10 * L.tb.rateCorr } }

/-- TB_COMPENSATION: layer 1 of both oscillators follows the lane's junction temperature (R199), as background work of the
lane (R22). -/
def tbCompensation (l : LaneId) (tempC : Int) (s : State) : State :=
  if bgTurn s l 0 then
    modLane s l fun L => bgMark 0 s.grp.groupTime.toNat <| setRate l { L with
      temp := tempC
      tb := { L.tb with compTemp := tempC,
                        comp0 := compClamp (Config.oscComp (laneNum l) false tempC),
                        comp1 := compClamp (Config.oscComp (laneNum l) true tempC) } }
  else s

/-- TB_COMPENSATION (R199). -/
def execTbCompensation (l : LaneId) (tempC : Int) (s : State) : Host.Outcome State Fault Refusal :=
  .next (whenOn s (tbCompensation l tempC))

/-- The hub whose marks are the reference from the next boundary: the lower-numbered integrated one (R201). -/
def refHub (s : State) : Option HubId :=
  if hubIntegrated s.hubs.a then some .h0 else if hubIntegrated s.hubs.b then some .h1 else none

/-- The lane whose round-boundary messages are the reference without an integrated hub: that of the lowest seat held
(R201). -/
def refLane (s : State) : Option LaneId := (seated s).head?

/-- The hub whose marks the lanes compare their intervals over: none in the round after a reference hub was lost, which
uses seat 1's messages (R220). -/
def measHub (g : Group) : Option HubId := if g.refMix then none else g.refIn

/-- A mark belongs to a reference: a hub's, or without one seat 1's messages (R201). -/
def markOf (ref : Option HubId) : MarkSource → Bool
  | .hub h => ref == some h
  | .seat => ref.isNone

/-- The lane's own messages are the reference (R201). -/
def isOwnRef (s : State) (l : LaneId) : Bool := s.grp.refIn.isNone && refLane s == some l

/-- The rate by which layer 3 brings a boundary back: against the offset, at most 100 ppm, its size free (R199, R202,
log 42); with no offset left the lane keeps the rate it has (log 42). Offsets in 10 ns, positive for a boundary after its
mark; rates in 0.1 ppm, positive for a faster count. -/
def steer (free : Nat) (offset old : Int) : Int :=
  let size : Int := (Config.freeWord free).toNat % 1001
  if 0 < offset then size else if offset < 0 then -size else max (-1000) (min 1000 old)

/-- The interval of the active oscillator. -/
def activeMeas (t : TimeBase) : Nat := if t.onSpare then t.meas1 else t.meas0

/-- The nominal round length in ns. -/
def roundNominal (s : State) : Nat := roundTicks s * 100000

/-- A mark ends the interval since the last one: both oscillators' figures, the active one nominal where the lane counts its
own reference; the active figure goes to the other lanes (R201, R208). -/
def measureMark (l : LaneId) (src : MarkSource) (m0 m1 : Nat) (s : State) : State :=
  let own := (measHub s.grp).isNone && refLane s == some l
  let s1 := modLane s l fun L =>
    let n := roundNominal s
    takesIn [inWord m0, inWord m1] { L with tb := { L.tb with
      meas0 := if own && !L.tb.onSpare then n else m0
      meas1 := if own && L.tb.onSpare then n else m1
      src := some src } }
  say l (.interval l (activeMeas (lane s1 l).tb)) s1

/-- R210 is suspended after the bus has been synchronised again: until 3 rounds after the steering has ended, or for 10 s
(R220). -/
def offsetFree (s : State) (t : TimeBase) : Bool :=
  let now := s.grp.groupTime.toNat
  t.resyncAt.any fun a => now < a + 100000 && !t.steerEnd.any fun e => e + 3 * roundTicks s ≤ now

/-- A mark of the steering reference: the offset, the rate, and the marks in a row beyond 5 µs (R202, R210, R220). -/
def steerMark (l : LaneId) (src : MarkSource) (offset : Int) (s : State) : State :=
  let now := s.grp.groupTime.toNat
  useFree (modLane s l fun L =>
    let t := L.tb
    let again := t.ref == some .seat && src != .seat
    let t1 := { t with
      offset := offset, steered := true, ref := some src, rateCorr := steer s.free offset t.rateCorr,
      resyncAt := if again then some now else t.resyncAt,
      steerEnd := if offset = 0 then some ((if again then none else t.steerEnd).getD now) else if again then none else t.steerEnd }
    setRate l { L with tb := { t1 with
      offRun := if 500 < offset.natAbs && !offsetFree s t1 then t.offRun + 1 else 0 } })

/-- BOUNDARY_MARK_RECEIVED: the intervals of both oscillators where the mark is that of the comparison, the offset and the
steering where it is that of the lane's reference; a lane whose own messages are the reference steers on none (R199-R202,
R208, R210, R220). -/
def markReceived (l : LaneId) (src : MarkSource) (m0 m1 : Nat) (offset : Int) (s : State) : State :=
  let s0 := match src with
    | .hub h => modLane (modHub s h fun H => { H with markOut := H.markOut.filter (· != l) }) l (laneRaw (4 + hubNum h))
    | .seat => s
  let s1 := if markOf (measHub s.grp) src then measureMark l src m0 m1 s0 else s0
  if markOf s.grp.refIn src && !isOwnRef s l then steerMark l src offset s1 else s1

/-- BOUNDARY_MARK_RECEIVED (R201). -/
def execBoundaryMarkReceived (l : LaneId) (src : MarkSource) (m0 : Nat) (m1 : Nat) (offset : Int) (s : State) :
    Host.Outcome State Fault Refusal := .next (whenOn s (markReceived l src m0 m1 offset))

/-- BOUNDARY_OFFSET_FENCE: more than 5 µs off at 3 consecutive boundaries (R210). -/
def offsetFence (l : LaneId) (s : State) : State :=
  if 3 ≤ (lane s l).tb.offRun then
    fence (modLane s l fun L => { L with tb := { L.tb with offRun := 0 } }) l 4 0 (vitalCycle s) 0xFFFF
  else s

/-- BOUNDARY_OFFSET_FENCE (R210). -/
def execBoundaryOffsetFence (l : LaneId) (s : State) : Host.Outcome State Fault Refusal :=
  .next (whenOn s (offsetFence l))

/-- TIME_MEASUREMENT_RECEIVED (R208): the figure of a lane that is not disregarded and that the lane can hear. -/
def timeHeard (l sender : LaneId) (ns : Nat) (s : State) : State :=
  modLane s l fun L =>
    if l = sender || L.disregard.contains sender || !linked s l sender then L
    else takesIn [inWord ns] { L with tb := { L.tb with heard := tblSet L.tb.heard (laneNum sender) ns } }

/-- TIME_MEASUREMENT_RECEIVED (R208). -/
def execTimeMeasurementReceived (l : LaneId) (sender : LaneId) (ns : Nat) (s : State) :
    Host.Outcome State Fault Refusal := .next (whenOn s (timeHeard l sender ns))

/-- The tolerance of R208 in ns: 200 ppm of the round length and 2 µs. -/
def timeTol (s : State) : Nat := roundTicks s * 20 + 2000

/-- Two measurements agree (R208). -/
def timeAgrees (s : State) (a b : Nat) : Bool := a ≤ b + timeTol s && b ≤ a + timeTol s

/-- A lane's own measurement of the round: nominal where its own messages are the reference of the comparison; none without
a mark. -/
def ownMeas (s : State) (l : LaneId) : Option Nat :=
  let t := (lane s l).tb
  if (measHub s.grp).isNone && refLane s == some l then some (roundNominal s)
  else if t.src.isSome then some (activeMeas t) else none

/-- The seated lanes whose measurement agrees with a lane's own. -/
def timeGood (s : State) (l : LaneId) (mine : Nat) : List LaneId :=
  ((seated s).filter (· != l)).filter fun k =>
    (tblGet (lane s l).tb.heard (laneNum k)).any fun v => timeAgrees s mine v

/-- TIME_COMPARISON of a seated lane or of the spare (R209); while a lane is halted, what is missing fences none (R55). A
measurement that has not come agrees with nothing, and a lane that has none of its own compares nothing (DESIGN CHOICE, log
133). A lane outvoted in the same round that agrees with none has its one fence with cause 4 (R220). -/
def timeComparison (l : LaneId) (s : State) : State :=
  if !groupRuns s.grp || (lane s l).dbg.halted then s
  else match ownMeas s l with
    | none => s
    | some mine =>
      let others := (seated s).filter fun k => k != l && !(lane s k).dbg.halted
      let good := (timeGood s l mine).filter fun k => !(lane s k).dbg.halted
      if (lane s l).fenced then
        (if good.isEmpty && !others.isEmpty then fence s l 4 0 (vitalCycle s) 0xFFFF else s)
      else match seatOfLane s l with
      | some st =>
        if s.grp.gst = .degraded then (if good.length = others.length then s else enterSafe s 2)
        else match others.filter fun k => !good.contains k, good with
          | [], _ => s
          | [k], [_] => match seatOfLane s k with
            | some named => accuse s l st named true
            | none => s
          | _, _ => fence s l 4 0 (vitalCycle s) 0xFFFF
      | none =>
        if (s.grp.spare == some l || s.grp.join.any fun j => j.joiner == l) && good.isEmpty && !others.isEmpty then
          fence s l 4 0 (vitalCycle s) 0xFFFF
        else s

/-- TIME_COMPARISON (R209). -/
def execTimeComparison (l : LaneId) (s : State) : Host.Outcome State Fault Refusal :=
  .next (whenOn s (timeComparison l))

/-- An oscillator marked failed, with its note and event (R211); the active one is left at the next boundary. -/
def oscFail (s : State) (l : LaneId) (second : Bool) (rate : Int) : State :=
  let s1 := modLane s l fun L => { L with tb := { L.tb with
    failed0 := L.tb.failed0 || !second, failed1 := L.tb.failed1 || second,
    switchDue := L.tb.switchDue || (L.tb.onSpare == second) } }
  laneEvent (laneNote s1 l 5 (leBytes 1 second.toNat ++ leInt 4 rate)) l 4 second.toNat

/-- OSCILLATOR_CHECK (R211). Without a good oscillator left, neither within 100 ppm of the reference or the other one failed
before, the lane fences (R211, R220). With both within 100 ppm of the reference and apart from each other, the active one is
kept (log 43). -/
def oscCheck (l : LaneId) (r0 r1 : Int) (s : State) : State :=
  let s1 := modLane s l fun L => { L with tb := { L.tb with rate0 := r0, rate1 := r1 } }
  let t := (lane s l).tb
  let good0 := rateOk r0 && !t.failed0
  let good1 := rateOk r1 && !t.failed1
  if (lane s l).nv.retire ≠ 0 then s1
  else if (!rateOk r0 && !rateOk r1) || (!good0 && !good1) then fence s1 l 4 0 (vitalCycle s1) 0xFFFF
  else if t.failed0 || t.failed1 || (r0 - r1).natAbs ≤ 1000 then s1
  else if good0 && good1 then (if t.onSpare then oscFail s1 l false r0 else oscFail s1 l true r1)
  else if good0 then oscFail s1 l true r1
  else oscFail s1 l false r0

/-- OSCILLATOR_CHECK (R211). -/
def execOscillatorCheck (l : LaneId) (rate0 : Int) (rate1 : Int) (s : State) : Host.Outcome State Fault Refusal :=
  .next (whenOn s (oscCheck l rate0 rate1))

/-- The oscillator switch due at a round boundary (R211): the count goes on without a step. -/
def oscSwitch (s : State) (l : LaneId) : State :=
  let t := (lane s l).tb
  if t.switchDue then
    let on := !t.onSpare
    let s1 := modLane s l fun L => { L with tb := { L.tb with onSpare := on, switchDue := false } }
    laneEvent (laneNote s1 l 5 (leBytes 1 on.toNat ++ leInt 4 (if on then t.rate1 else t.rate0))) l 4 on.toNat
  else s

/-- A lane's time base at a round boundary: without a mark of its reference in the round that ended, or as its own reference,
no run of boundaries beyond 5 µs goes on (R210). As its own reference it runs on its compensated time base alone, with no
offset (R201, R203); where both hubs have lost integration, R220 has the seats keep their rates, which the model takes
for the lanes that steer on another's messages (DEDUCED, log 132). -/
def tbBoundary (own : Bool) (l : LaneId) (L : Lane) : Lane :=
  let t := L.tb
  let t1 := { t with src := none, steered := false, heard := [], offRun := if own || !t.steered then 0 else t.offRun }
  setRate l { L with tb := if own then { t1 with rateCorr := 0, offset := 0, ref := some .seat } else t1 }

/-- The references of the round that starts (R201, R220): the lower-numbered integrated hub, else the lowest seat held; where
the reference hub was lost, the comparison of that one round uses seat 1's messages, which that seat sends at every
boundary. -/
def markBoundary (s : State) : State :=
  let new := refHub s
  let lost := s.grp.refIn.any fun h => !hubIntegrated (hub s h)
  let s0 := modGrp s fun g => { g with refIn := new, refMix := lost }
  let s1 := (refLane s).elim s0 fun l => say l (.mark l) s0
  modLanes s1 allLanes fun l L => tbBoundary (isOwnRef s1 l) l L

/-! ## Scrub (R385-R388) -/

/-- First address of a region. -/
def regionBase (r : Nat) : Nat := 0x10000 * r

/-- A lane takes the snapshot of a region and scans it (R386). -/
def scrubScan (pass region : Nat) (L : Lane) : Lane :=
  let snap := memRange (wholeMem L) (regionBase region) (regionBase region + 0x10000)
  let crc := crc64Fold 0 (BitVec.ofNat 32 (regionBase region)) (BitVec.ofNat 32 pass)
    (memBytes snap (regionBase region) 0x10000)
  { L with scrub := { region := some region, snap := snap, result := some crc } }

/-- The next multiple of 400 ms after a group time in ticks. -/
def nextScrub (now : Nat) : Nat := (now / 4000 + 1) * 4000

/-- The scrub goes on to the next region; the pass rises at its end (R385). -/
def scrubAdvance (now : Nat) (c : ScrubSt) : ScrubSt :=
  { c with region := if c.region = 127 then 0 else c.region + 1, pass := if c.region = 127 then c.pass + 1 else c.pass,
           active := false, recheck := false, repaired := [], repeated := false, nextAt := nextScrub now }

/-- The lanes that run: powered, not retired and not in a self-test. -/
def runningLanes (s : State) : List LaneId :=
  allLanes.filter fun l => (lane s l).nv.retire == 0 && !(lane s l).fenced && (lane s l).loaded

/-- The 4 KiB blocks of a region, by their number in the SRAM. -/
def regionBlocks (region : Nat) : List Nat := (List.range 16).map fun k => 16 * region + k

/-- The pattern of a block (R388). -/
def blockPattern (b : Nat) : List (Nat × Word) :=
  (List.range 1024).map fun k => (4096 * b + 4 * k, Config.testWord (4096 * b + 4 * k))

/-- A self-test region step in one lane (R388): the pattern goes into every block that holds no live data, the blocks in use are
skipped and recorded, and a block that does not read back is a finding of the bank. `bad` numbers blocks within the region. -/
def selfTestStep (region free : Nat) (bad : Quad (List Nat)) (s : State) (l : LaneId) : State :=
  let used := (regionBlocks region).filter fun b => Config.blockInUse free (laneNum l) b
  let idle := (regionBlocks region).filter fun b => !used.contains b
  let s1 := modLane s l fun L => { execStores L (idle.flatMap blockPattern) with inUse := used }
  if (quadGet bad l).any fun k => idle.contains (16 * region + k) then sramFinding s1 l region else s1

/-- SCRUB_STEP at a boundary at which a step is due, as background work of the seated lanes (R22, R385, R386, R388). -/
def scrubStep (bad : Quad (List Nat)) (s : State) : State :=
  let c := s.grp.scrub
  let now := s.grp.groupTime.toNat
  if !groupRuns s.grp || !s.grp.firstBoundary || c.active || now < c.nextAt ||
      (s.grp.join.any fun j => j.step == 5 || j.step == 6) || !(seated s).all fun l => bgTurn s l 2 then s
  else if c.region < 112 then
    let s1 := modLanes s (seated s) fun _ L => scrubScan c.pass c.region L
    let msgs := (seated s1).filterMap fun l => (lane s1 l).scrub.result.map fun v => (l, StraitMsg.scrub l v)
    msgs.foldl (fun s m => say m.1 m.2 s) (modGrp s1 fun g => { g with scrub := { c with active := true, latest := c.region } })
  else
    let s1 := (runningLanes s).foldl (selfTestStep c.region s.free bad) (useFree s)
    modGrp s1 fun g => { g with scrub := { scrubAdvance now c with latest := c.region } }

/-- SCRUB_STEP (R385). -/
def execScrubStep (badBlocks : Quad (List Nat)) (s : State) : Host.Outcome State Fault Refusal :=
  .next (whenOn s (scrubStep badBlocks))

/-- SCRUB_RESULT_RECEIVED (R386). -/
def scrubHeard (l sender : LaneId) (v : DWord) (s : State) : State :=
  modLane s l fun L =>
    if l = sender || L.disregard.contains sender || !linked s l sender then L
    else takesIn [v] { L with scrub := { L.scrub with heard := tblSet L.scrub.heard (laneNum sender) v } }

/-- SCRUB_RESULT_RECEIVED (R386). -/
def execScrubResultReceived (l : LaneId) (sender : LaneId) (result : BitVec 64) (s : State) :
    Host.Outcome State Fault Refusal := .next (whenOn s (scrubHeard l sender result))

/-- A lane's result as every other seat has it; missing where one of them lacks it (R386). -/
def scrubValue (s : State) (l : LaneId) : Option DWord :=
  ((lane s l).scrub.result).filter fun v =>
    ((seated s).filter (· != l)).all fun k => tblGet (lane s k).scrub.heard (laneNum l) == some v

/-- The seated lanes whose result equals a lane's. -/
def scrubGroup (s : State) (l : LaneId) : List LaneId :=
  match scrubValue s l with
  | none => []
  | some v => (seated s).filter fun k => scrubValue s k == some v

/-- The scrub after a compared step: the group's part changed and the lanes' parts ended. -/
def scrubDone (s : State) (f : ScrubSt → ScrubSt) : State :=
  let s1 := modLanes s (seated s) fun _ L => { L with scrub := { L.scrub with result := none, heard := [] } }
  modGrp s1 fun g => { g with scrub := f g.scrub }

/-- The minority lane's finding and the snapshot sent to it (R386, R387), after which all seats scan the region again; a lane already
repaired there is found wrong a second time and gets no further repair. -/
def scrubMinority (s : State) (good : List LaneId) (bad : LaneId) (now : Nat) : State :=
  let c := s.grp.scrub
  let s1 := sramFinding s bad c.region
  if c.repaired.contains bad then scrubDone s1 (scrubAdvance now)
  else
    let s2 := modLane s1 bad fun L =>
      { L with scrub := { L.scrub with repair := good.head?.map fun l => (l, (lane s l).scrub.snap) } }
    scrubDone s2 fun c =>
      { c with active := false, recheck := true, repaired := bad :: c.repaired, nextAt := now + roundTicks s }

/-- The comparison at the round boundary after a step (R386). -/
def scrubCompare (s : State) : State :=
  let c := s.grp.scrub
  let now := s.grp.groupTime.toNat
  if !c.active || !groupRuns s.grp then s
  else
    let ls := seated s
    let again (s : State) : State :=
      scrubDone s fun c => { c with active := false, repeated := true, nextAt := now + roundTicks s }
    match ls.find? fun l => 2 ≤ (scrubGroup s l).length with
    | some l =>
      let good := scrubGroup s l
      match ls.filter fun k => !good.contains k with
      | [] => scrubDone s (scrubAdvance now)
      | bad :: _ => scrubMinority s good bad now
    | none =>
      if !c.repeated then again s
      else if s.grp.gst = .degraded then enterSafe s 2
      else ls.foldl (fun s l => fence s l 2 0 (vitalCycle s) 0xFFFF) s

/-- The repair of a region (R387): the words of the received snapshot but for those the lane has marked. -/
def repairWords (c : ScrubLane) (region : Nat) (good : Mem) : List (Nat × Word) :=
  (List.range 0x4000).filterMap fun k =>
    let a := regionBase region + 4 * k
    if c.marked.contains (a / 4) then none else some (a, memWord good a)

/-- SCRUB_REPAIR_RECEIVED by the minority lane: stores of its executive, signed and waiting like any other (R41, R387). A
repair whose sender has fenced meanwhile is dropped (R390). -/
def scrubRepair (l : LaneId) (s : State) : State :=
  let L := lane s l
  match L.scrub.repair, L.scrub.region with
  | some (k, good), some r =>
    if (lane s k).fenced then setLane s l { L with scrub := { L.scrub with repair := none } }
    else setLane s l { execStores (takesIn (good.map fun c => inWord (256 * c.1 + c.2.toNat)) L) (repairWords L.scrub r good) with scrub := {} }
  | _, _ => s

/-- SCRUB_REPAIR_RECEIVED (R387). -/
def execScrubRepairReceived (l : LaneId) (s : State) : Host.Outcome State Fault Refusal :=
  .next (whenOn s (scrubRepair l))

end Sys2Proof.Machine
end

