-- ==== Sys2Proof/Machine/Bus.lean ====
section
/-! DEFINITION. Brodxo: frames and their checks, the nodes and clock synchronisation of the four ports, their guardians,
uplinks, claims and the schedule owner (R221-R280). -/

namespace Sys2Proof.Machine

open Sys2Proof

/-! ## Ports (R221) -/

/-- The hub of a port. -/
def portHub : PortId → HubId
  | .p0 => .h0
  | .p1 => .h0
  | .p2 => .h1
  | .p3 => .h1

/-- The port is its hub's upper one, of segment 2. -/
def portUpper : PortId → Bool
  | .p0 => false
  | .p1 => true
  | .p2 => false
  | .p3 => true

/-- The segment of a port, 1 or 2. -/
def portSeg (p : PortId) : Nat := if portUpper p then 2 else 1

/-- The channel of a port: 0 A, 1 B. -/
def portChan (p : PortId) : Nat := hubNum (portHub p)

/-- A port. -/
def port (s : State) (p : PortId) : Port := if portUpper p then (hub s (portHub p)).hi else (hub s (portHub p)).lo

/-- The state with a port replaced. -/
def setPort (s : State) (p : PortId) (P : Port) : State :=
  modHub s (portHub p) fun H => if portUpper p then { H with hi := P } else { H with lo := P }

/-- The state with a port changed. -/
def modPort (s : State) (p : PortId) (f : Port → Port) : State := setPort s p (f (port s p))

/-- The configuration that names the plan: the group's; in FORMING that of a loaded lane, if any. -/
def busCfg (s : State) : Cfg :=
  if s.grp.gst = .forming then
    match allLanes.find? fun l => (lane s l).loaded with
    | some l => (lane s l).cfg
    | none => s.grp.cfg
  else s.grp.cfg

/-- The node id of a hub on the bus, 0 to 63 (R258). -/
def hubNode : HubId → Nat
  | .h0 => Config.nodeH0.val
  | .h1 => (Config.nodeH0.val + 1 + Config.nodeGap.val) % 64

/-- The SENDER or OWNER field of a sync node (R228, R231). -/
def nodeField (id : Nat) : Nat := 0xF000 + id

/-- The plan slot in which a frame arrives or starts. -/
def slotAt (s : State) (p : PortId) (k : Nat) : Option SlotCfg := (planOf (busCfg s) (portSeg p))[k]?

/-! ## Frame checks (R229) -/

/-- A discard counted by cause (R424). -/
def discard (s : State) (p : PortId) (c : Nat) : State :=
  modPort s p fun P => { P with discard := P.discard.setIfInBounds c (satInc ((P.discard.toList[c]?).getD 0)) }

/-- A received frame counts in class 5 of its hub (R454). -/
def countRx (s : State) (p : PortId) : State :=
  modHub s (portHub p) fun H => hubCount H 5 1 (some (portUpper p).toNat)

/-- BRODXO_MAC of a segment (R227): the segment takes the place of the last digit (DESIGN CHOICE, log 111). -/
def busMac (c : Cfg) (seg : Nat) : BitVec 48 := (c.mac >>> 4 <<< 4) ||| BitVec.ofNat 48 seg

/-- A frame of a length the module supports (R225); another one is dropped and counts nowhere (log 112). -/
def lenOk (h : FrameHead) : Bool := 64 ≤ h.len && h.len ≤ 1518

/-- The first of the causes 0-3 of R229 that holds of a frame: where several causes hold, the first of the rule's list counts
(DESIGN CHOICE, log 113). -/
def earlyFault (c : Cfg) (p : PortId) (h : FrameHead) : Option Nat :=
  if !h.fcsOk then some 0
  else if h.dest ≠ busMac c (portSeg p) || h.etherType ≠ c.ethertype then some 1
  else if h.version ≠ 1 || h.ftype = 0 || 5 < h.ftype then some 2
  else if h.segment ≠ portSeg p || h.flags % 2 ≠ portChan p then some 3
  else none

/-- ROUND does not equal the low 48 bits of the port's round count. -/
def roundBad (P : Port) (h : FrameHead) : Bool := h.round.toNat != P.round.toNat % 2 ^ 48

/-- The start-of-frame delimiter lies outside the acceptance window of ±1 µs: 6 early, 7 late. -/
def windowFault (h : FrameHead) : Option Nat :=
  if h.devNs < -1000 then some 6 else if 1000 < h.devNs then some 7 else none

/-- A station may send in a slot (R229): its planned uplink slot, or a spare slot granted to it. -/
def stationSlot (s : State) (p : PortId) (x : SlotCfg) (addr : Nat) : Bool :=
  (x.kind == 3 && x.owner == addr) ||
    (x.kind == 4 && s.grp.grants.any fun g =>
      g.addr == addr && g.seg == portSeg p && g.slot == x.owner && g.since.toNat ≤ (port s p).round.toNat &&
        g.until_.all fun u => (port s p).round.toNat < u.toNat)

/-- A frame's type and SENDER match the slot in which it arrives (R229, R231). -/
def slotMatches (s : State) (p : PortId) (h : FrameHead) : Bool :=
  match slotAt s p h.slot with
  | none => false
  | some x =>
    match h.ftype with
    | 1 => x.kind == 1 && h.sender == x.owner
    | 2 => x.kind == 1 && h.sender == x.owner
    | 3 => x.kind == 2 && 0xF000 ≤ h.sender && h.sender < 0xF040
    | 4 => h.sender < 4096 && stationSlot s p x h.sender
    | 5 => x.kind == 5 && h.sender < 4096
    | _ => false

/-- The first cause of R229 that holds of a frame in a port that holds a round count and a boundary (log 113). -/
def frameFault (s : State) (p : PortId) (h : FrameHead) : Option Nat :=
  (earlyFault (busCfg s) p h).or
    (if roundBad (port s p) h then some 4 else if !slotMatches s p h then some 5 else windowFault h)

/-- What a port does with an uplink, claim or downlink frame (R225, R229): a discard is counted; without a boundary of its own
the port knows no slot, and only the checks that need none count; the rest takes the frame. -/
def takeFrame (p : PortId) (h : FrameHead) (take : State → State) (s : State) : State :=
  if !(hub s (portHub p)).fwRunning || !(port s p).linkUp || !lenOk h then s
  else
    let s1 := countRx s p
    if (port s p).known then
      match frameFault s p h with
      | some e => discard s1 p e
      | none => take s1
    else match earlyFault (busCfg s) p h with
      | some e => discard s1 p e
      | none => s1

/-! ## Codes (R240-R243, R263) -/

/-- The 16 bytes of a frame's Brodxo header (R228). -/
def headBytes (h : FrameHead) : List Byte :=
  beBytes 1 h.version ++ beBytes 1 h.ftype ++ beBytes 1 h.segment ++ beBytes 1 h.flags ++ beBytes 2 h.sender ++
    beBytes 4 h.seq.toNat ++ beBytes 6 h.round.toNat

/-- The station code of an uplink (kind 0x20) or claim (0x21) (R240-R242). -/
def stationCode (c : Cfg) (kind : Nat) (h : FrameHead) (body : List Byte) : DWord :=
  crc64Fold (stationKey c (h.sender % 4096)) (foldWord (h.sender % 4096) h.segment kind) h.seq
    (pad64 (headBytes h ++ body))

/-- The body of a SYNC frame up to its code (R261). -/
def syncBody (f : SyncFrame) : List Byte :=
  beBytes 8 f.roundFull.toNat ++ beBytes 8 f.planId.toNat ++ beBytes 1 f.state ++ beBytes 1 f.values ++ [0, 0] ++
    beBytes 4 (unsignedOf 32 f.lastCorr) ++ beBytes 4 (unsignedOf 32 f.rateCorr) ++ List.replicate 35 0

/-- The body of a COLD_START frame up to its code (R262). -/
def coldBody (f : ColdStartFrame) : List Byte :=
  beBytes 8 f.roundFull.toNat ++ beBytes 8 f.planId.toNat ++ beBytes 1 f.attempt ++ beBytes 1 f.collisions ++
    [0, 0, 0, 0]

/-- SYNC_CODE (R263): kind 0x30 for SYNC, 0x31 for COLD_START. -/
def syncCode (c : Cfg) (kind : Nat) (h : FrameHead) (body : List Byte) : DWord :=
  crc64Fold c.syncKey (foldWord h.sender h.segment kind) h.seq (pad64 (headBytes h ++ body))

/-! ## Corrections (R273, R274) -/

/-- An insertion into a rising list. -/
def insertInt (x : Int) : List Int → List Int
  | [] => [x]
  | y :: r => if x ≤ y then x :: y :: r else y :: insertInt x r

/-- Values dropped at each end for n values (R273). -/
def dropK (n : Nat) : Nat := if 7 ≤ n then 2 else if 3 ≤ n then 1 else 0

/-- The fault-tolerant midpoint (R273). -/
def midpoint (vs : List Int) : Int :=
  let sorted := vs.foldr insertInt []
  let k := dropK vs.length
  let kept := (sorted.drop k).take (vs.length - 2 * k)
  match kept.head?, kept.getLast? with
  | some a, some b => (a + b) / 2
  | _, _ => 0

/-- The last 8 applied corrections. -/
def lastCorrs (cs : List Int) : List Int := cs.drop (cs.length - 8)

/-- The rate correction in 0.01 ppm after the mean of the last corrections, within ±200 ppm (R274). -/
def rateAfter (rate : Int) (cs : List Int) (roundNs : Nat) : Int :=
  let mean := cs.foldl (· + ·) (0 : Int) * 100000000 / ((max 1 cs.length : Nat) * (max 1 roundNs : Nat))
  max (-20000) (min 20000 (rate + mean))

/-- Length of a round in ns, of the plan the ports run. -/
def roundNs (s : State) : Nat := 100000 * max 1 (busCfg s).roundTicks

/-- The port's correction at its boundary: applied up to 4 µs, else counted (R274). -/
def correct (ns : Nat) (c : Int) (P : Port) : Port :=
  if c.natAbs ≤ 4000 then
    let cs := lastCorrs (P.corrs ++ [c])
    { P with corr := c, corrs := cs, rate := rateAfter P.rate cs ns, missRds := 0 }
  else { P with missRds := P.missRds + 1,
                discard := P.discard.setIfInBounds 11 (satInc ((P.discard.toList[11]?).getD 0)) }

/-! ## Guardians (R253, R254, R276) -/

/-- A guardian's interval between two boundaries in ns: the round length at the rate of its last accepted intervals, each
with the round length it had (R254). -/
def guardInterval (ns : Nat) (hist : List (Int × Nat)) : Int :=
  let excess := hist.foldl (fun (t : Int) x => t + (x.1 - (x.2 : Int))) 0
  let base := hist.foldl (fun t x => t + x.2) (0 : Nat)
  if base = 0 then (ns : Int) else (ns : Int) + excess * (ns : Int) / (base : Int)

/-- The guardian at the hub's round boundary, which lies at `atNs` of the guardian's own clock: it is judged against the
guardian's prediction, and the next prediction takes the measured rate and the guardian's own correction (R254, R276). The
first boundary it sees anchors the prediction and is not judged (log 115). It judges a leader's boundaries too, so that the
guardian of a hub that leaves LEADING can lock at once and the hub sends SYNC from the next round on (R266; DEDUCED, log 137). -/
def guardRound (node : NodeSt) (ns : Nat) (atNs : Int) (g : Guard) : Guard :=
  let c := midpoint (0 :: g.values.map (·.2))
  let off := g.predNs.elim 0 fun p => atNs - p
  let judged := (node = .integrated || node = .leading) && g.st ≠ .closed && g.predNs.isSome
  let good := judged && off.natAbs ≤ 200
  let hist := if good then (g.history ++ (g.lastNs.map fun a => (atNs - a, ns)).toList) else g.history
  let last := hist.drop (hist.length - 64)
  { g with
    accepted := if good then g.accepted + 1 else 0
    rejected := if judged && !good then g.rejected + 1 else if good then 0 else g.rejected
    rejectNow := judged && !good, isOpen := false, dev := off, history := last,
    lastNs := if good || g.predNs.isNone then some atNs else none
    predNs := some ((g.predNs.getD atNs : Int) + guardInterval ns last + c), values := [] }

/-- A guardian's own measurement of a SYNC frame in the capture window of its timeline, once per node (R273, R276). -/
def guardValue (id : Nat) (e : Int) (g : Guard) : Guard :=
  if g.predNs.isNone || 8000 < e.natAbs || g.values.any fun v => v.1 == id then g
  else { g with values := g.values ++ [(id, e)] }

/-! ## Frames sent (R227, R228, R261, R262) -/

/-- The header of a frame that a port sends in a slot (R227, R228). -/
def ownHead (s : State) (p : PortId) (ftype slot : Nat) (sq : Word) (round : DWord) : FrameHead :=
  { len := 0, fcsOk := true, dest := busMac (busCfg s) (portSeg p), etherType := (busCfg s).ethertype, version := 1,
    ftype := ftype, segment := portSeg p, flags := portChan p, sender := nodeField (hubNode (portHub p)), seq := sq,
    round := round.setWidth 48, slot := slot, devNs := 0 }

/-- A frame on the wire (R227): addresses, EtherType, header, body, FCS. -/
def frameBytes (p : PortId) (h : FrameHead) (body : List Byte) : List Byte :=
  let b := beBytes 6 h.dest.toNat ++ beBytes 6 (Config.portMac (2 * hubNum (portHub p) + (portUpper p).toNat)).toNat ++
    beBytes 2 h.etherType.toNat ++ headBytes h ++ body
  b ++ leBytes 4 (frameCheck b).toNat

/-- The sync slot of a node in the plan of a port. -/
def syncSlotOf (s : State) (p : PortId) (owner : Nat) : Option Nat :=
  (planOf (busCfg s) (portSeg p)).findIdx? fun x => x.kind == 1 && x.owner == owner

/-- START of a node's sync slot in ns; 0 for a node without one. -/
def syncStart (s : State) (p : PortId) (owner : Nat) : Int :=
  ((syncSlotOf s p owner).bind (slotAt s p)).elim 0 fun x => 10 * (x.start : Int)

/-- START of the port's own sync slot in ns. -/
def ownStart (s : State) (p : PortId) : Int := syncStart s p (nodeField (hubNode (portHub p)))

/-- The COLD_START frame of a port (R262). -/
def ownCold (s : State) (p : PortId) (P : Port) (sentNs : Int) : ColdStartFrame :=
  let h := ownHead s p 2 ((syncSlotOf s p (nodeField (hubNode (portHub p)))).getD 0)
    (BitVec.ofNat 32 (min 255 P.attempt)) P.round
  let f : ColdStartFrame :=
    { head := { h with len := 64 }, roundFull := P.round, planId := (busCfg s).planId, attempt := min 255 P.attempt,
      collisions := min 255 P.collisions, code := 0, sentNs := sentNs, arriveNs := sentNs }
  { f with code := syncCode (busCfg s) 0x31 h (coldBody f) }

/-- The SYNC frame of a port (R261): SEQUENCE counts the hub's SYNC frames on both its ports. -/
def ownSync (s : State) (p : PortId) (P : Port) : SyncFrame :=
  let h := ownHead s p 1 ((syncSlotOf s p (nodeField (hubNode (portHub p)))).getD 0) (hub s (portHub p)).syncSeq P.round
  let f : SyncFrame :=
    { head := { h with len := 105 }, roundFull := P.round, planId := (busCfg s).planId,
      state := if P.node = .leading then 1 else 2, values := P.lastVals, lastCorr := P.corr, rateCorr := P.rate, code := 0,
      sentNs := P.boundaryNs + ownStart s p, arriveNs := P.boundaryNs + ownStart s p, guardTen := 0 }
  { f with code := syncCode (busCfg s) 0x30 h (syncBody f) }

/-- A SYNC frame's bytes. -/
def syncWire (p : PortId) (f : SyncFrame) : List Byte := frameBytes p f.head (syncBody f ++ beBytes 8 f.code.toNat)

/-- A COLD_START frame's bytes. -/
def coldWire (p : PortId) (f : ColdStartFrame) : List Byte := frameBytes p f.head (coldBody f ++ beBytes 8 f.code.toNat)

/-- A frame whose preamble starts `startNs` after its slot's START on the guardian's timeline (R232, R254). -/
def txFrame (slot : Nat) (startNs : Int) (bytes : List Byte) : TxFrame :=
  { slot := slot, bytes := bytes, endsNs := startNs + 8 * ((8 + bytes.length : Nat) : Int) }

/-- A frame put on the wire: class 6 counts (R454). -/
def transmit (s : State) (p : PortId) (f : TxFrame) : State :=
  let s1 := modPort s p fun P => { P with sending := some f, sent := P.sent ++ [f] }
  modHub s1 (portHub p) fun H => hubCount H 6 1 (some (portUpper p).toNat)

/-! ## Node states (R264-R280) -/

/-- The highest ROUND_FULL a hub has received in any COLD_START since power good, on either port (R267). -/
def hubMaxSeen (H : Hub) : DWord := if H.lo.maxSeen < H.hi.maxSeen then H.hi.maxSeen else H.lo.maxSeen

/-- A hub's own proposal for the round count (R267). -/
def proposal (s : State) (h : HubId) : DWord :=
  let own := if groupRuns s.grp && s.grp.roundFixed then s.grp.round else hwmProposal (roundHwm s)
  let seen := hubMaxSeen (hub s h)
  if own < seen then seen else own

/-- S of R265 in ns. -/
def listenStep (P : Port) : Int := if 2 ≤ P.collisions then 24000 else 12000

/-- A listen timeout in ns (R265). -/
def listenTime (s : State) (h : HubId) (P : Port) : Int := 2 * (roundNs s : Int) + (hubNode h : Int) * listenStep P

/-- COLD_START frames of other nodes whose send instants lie less than 20 µs from one (R269). -/
def nearColds (id : Nat) (t : Int) (cs : List (Nat × Int)) : List Int :=
  (cs.filter fun c => c.1 != id && (c.2 - t).natAbs < 20000).map (·.2)

/-- A COLD_START noted; those more than 40 µs away cannot collide with one to come any more. -/
def noteCold (id : Nat) (t : Int) (cs : List (Nat × Int)) : List (Nat × Int) :=
  cs.filter (fun c => (c.2 - t).natAbs < 40000) ++ [(id, t)]

/-- A collision with send instants `t` and `near` (R269): it counts once for all frames within 20 µs, and the listen timeout
starts again from the earliest (R281). An integrated node keeps its own boundary. -/
def collide (t : Int) (near : List Int) (P : Port) : Port :=
  let first := near.foldl min t
  let same := P.collAt.filter fun a => (a - t).natAbs < 20000
  let from_ := same.elim first (min first)
  let P1 := { P with collisions := if same.isSome then P.collisions else P.collisions + 1, collAt := some from_ }
  if P.node = .integrated then P1 else toListen from_ P1

/-- The COLD_START of a port as `C` has it leaves where the guardian in LISTEN permits it, at most one per 2 rounds (R253; the
20 µs within which starters collide do not count against it, log 116). -/
def putCold (s : State) (p : PortId) (C : Port) (sentNs : Int) : State :=
  let P := port s p
  let free := P.guard.lastCold.all fun a => 2 * (roundNs s : Int) ≤ sentNs - a + 20000
  if P.guard.st = .listen && P.linkUp && free then
    let f := ownCold s p C sentNs
    modPort (transmit s p (txFrame f.head.slot 0 (coldWire p f))) p fun P =>
      { P with guard := { P.guard with lastCold := some sentNs }, colds := noteCold (hubNode (portHub p)) sentNs P.colds }
  else s

/-- A port sends its COLD_START; a frame that has left may be one of a collision (R269). -/
def sendCold (s : State) (p : PortId) (sentNs : Int) : State :=
  let P := port s p
  let s1 := putCold s p P sentNs
  if (port s1 p).colds = P.colds then s1
  else match nearColds (hubNode (portHub p)) sentNs P.colds with
    | [] => s1
    | near => modPort s1 p (collide sentNs near)

/-- A node that enters LEADING (R264): the round it counts and the first round it sends in. -/
def lead (round from_ : DWord) (boundary : Int) (P : Port) : Port :=
  { P with node := .leading, known := true, round := round, leadFrom := from_, boundaryNs := boundary, coldPhase := true,
           attempt := P.attempt + 1, values := [], syncs := [], lastSyncs := 0, heard := false, goodRds := 0, quietRds := 0,
           fewRds := 0, settled := false, outbid := false }

/-- LISTEN_TIMEOUT: nothing received, and the hub leads (R265, R266). -/
def listenOut (p : PortId) (s : State) : State :=
  let P := port s p
  if !(hub s (portHub p)).fwRunning || P.node ≠ .listen then s
  else
    let r := proposal s (portHub p)
    let t := P.listenNs + listenTime s (portHub p) P
    sendCold (setPort s p (lead r r (t - ownStart s p) P)) p t

/-- LISTEN_TIMEOUT (R265). -/
def execListenTimeout (p : PortId) (s : State) : Host.Outcome State Fault Refusal := .next (whenOn s (listenOut p))

/-- A sync value of a node in the round, once per node, within the capture window of ±8 µs (R273). -/
def putValue (id : Nat) (dev : Int) (P : Port) : Port :=
  if 8000 < dev.natAbs || P.values.any fun v => v.1 == id then P else { P with values := P.values ++ [(id, dev)] }

/-- A port takes its boundary and round count from a frame (R266, R271). -/
def integrate (id : Nat) (r : DWord) (boundary : Int) (P : Port) : Port :=
  { P with node := .integrating, known := true, round := r, boundaryNs := boundary, values := [(id, 0)], goodRds := 0,
           quietRds := 0, fewRds := 0, missRds := 0, settled := false, outbid := false }

/-- The node id in a SENDER field. -/
def senderNode (h : FrameHead) : Nat := h.sender % 64

/-- The rounds until a leader sends again (R266). -/
def leadRounds (P : Port) : Nat :=
  if P.round ≤ P.leadFrom then P.leadFrom.toNat - P.round.toNat else (P.round.toNat - P.leadFrom.toNat) % 2

/-- The send instant of a node's next COLD_START, if it is about to send one. -/
def nextCold (s : State) (p : PortId) (P : Port) : Option Int :=
  match P.node with
  | .listen => some (P.listenNs + listenTime s (portHub p) P)
  | .leading => some (P.boundaryNs + (leadRounds P : Int) * roundNs s + ownStart s p)
  | _ => none

/-- At an instant a node's own COLD_START lies in the last 1 µs before its sending and cannot be cancelled (R269). -/
def committed (s : State) (p : PortId) (P : Port) (at_ : Int) : Option Int :=
  (nextCold s p P).filter fun t => at_ < t && t ≤ at_ + 1000

/-- What a port proposes in its next COLD_START. -/
def coldContent (s : State) (p : PortId) (P : Port) : Port :=
  if P.node = .listen then { P with round := proposal s (portHub p), attempt := P.attempt + 1 }
  else { P with round := P.round + BitVec.ofNat 64 (leadRounds P) }

/-- A COLD_START that is committed when a SYNC or COLD_START arrives still leaves, whatever the port does then (R269). -/
def sendCommitted (s : State) (p : PortId) (at_ : Int) : State :=
  let P := port s p
  match committed s p P at_ with
  | some t =>
    let s1 := putCold s p (coldContent s p P) t
    if P.node = .listen then modPort s1 p fun P => { P with attempt := P.attempt + 1 } else s1
  | none => s

/-- A COLD_START takes part in the choice of the highest proposal, which is no collision (R268): the port leads or integrates,
has counted a round so, and hears a higher proposal; or the count it holds has just replaced the lower one it hears. R269
alone would make a collision of any two frames within 20 µs (DEDUCED, log 136). -/
def outbids (P : Port) (r : DWord) : Bool :=
  (P.node == .leading || P.node == .integrating) && ((P.settled && P.round < r) || (P.outbid && r < P.round))

/-- A COLD_START that passes its checks, in a port (R268-R271). -/
def coldIn (s0 : State) (p : PortId) (f : ColdStartFrame) : State :=
  let s := sendCommitted s0 p f.arriveNs
  let P0 := port s p
  let id := senderNode f.head
  let own := proposal s (portHub p)
  let b := f.sentNs - syncStart s p f.head.sender
  let P := { P0 with maxSeen := if P0.maxSeen < f.roundFull then f.roundFull else P0.maxSeen, heard := true,
                     coldPhase := P0.coldPhase || P0.node != NodeSt.integrated, colds := noteCold id f.sentNs P0.colds }
  let near := if outbids P0 f.roundFull then [] else nearColds id f.sentNs P0.colds
  match near, P.node with
  | a :: near, _ => setPort s p (collide f.sentNs (a :: near) P)
  | [], .integrated => setPort s p (putValue id f.head.devNs P)
  | [], .leading =>
    if P.round < f.roundFull then setPort s p (outbidBy id f.roundFull b P) else setPort s p (putValue id f.head.devNs P)
  | [], .listen =>
    if f.roundFull < own then setPort s p (leadNext s own b P)
    else setPort s p (integrate id f.roundFull b P)
  | [], .integrating =>
    if f.roundFull < own then setPort s p (leadNext s own b P)
    else if P.round < f.roundFull then setPort s p (outbidBy id f.roundFull b P)
    else setPort s p (putValue id f.head.devNs P)
where
  /-- The port takes the higher proposal (R268). -/
  outbidBy (id : Nat) (r : DWord) (b : Int) (P : Port) : Port := { integrate id r b P with outbid := true }
  /-- The node with the higher proposal sends its own COLD_START in the next even round of the boundary it received: a
  running group's count goes on meanwhile, another proposal stands as it is (R267, R268). -/
  leadNext (s : State) (own : DWord) (b : Int) (P : Port) : Port :=
    let L := if groupRuns s.grp && s.grp.roundFixed then lead own (own + 2) b P else lead (own - 2) own b P
    { L with outbid := true }

/-- The checks of SYNC and COLD_START before their time counts: R229 to its cause 3, a sender with a sync slot, code and plan
(R263), and ROUND where the receiver holds a round count; a COLD_START may propose another one until the port is integrated
(R268, log 60). -/
def syncChecks (s : State) (p : PortId) (h : FrameHead) (ftype : Nat) (codeOk planOk : Bool) : Option Nat :=
  let P := port s p
  (earlyFault (busCfg s) p h).or
    (if h.ftype ≠ ftype || (syncSlotOf s p h.sender).isNone then some 5
     else if !codeOk || !planOk then some 12
     else if P.known && (ftype = 1 || P.node = .integrated) && roundBad P h then some 4
     else none)

/-- What a port with a boundary counts of a SYNC or COLD_START that serves it: out of its slot or its acceptance window, the
frame is not passed on (R229, R273). -/
def timeFault (s : State) (p : PortId) (h : FrameHead) : Option Nat :=
  if !(port s p).known then none else if !slotMatches s p h then some 5 else windowFault h

/-- A SYNC or COLD_START in a port (R225, R229, R263, R273). -/
def takeSync (p : PortId) (h : FrameHead) (ftype : Nat) (codeOk planOk : Bool) (take : State → State) (s : State) : State :=
  if !(hub s (portHub p)).fwRunning || !(port s p).linkUp || !lenOk h then s
  else
    let s1 := countRx s p
    match syncChecks s p h ftype codeOk planOk with
    | some e => discard s1 p e
    | none => match timeFault s p h with
      | some e => discard (take s1) p e
      | none => take s1

/-- COLD_START_RECEIVED (R268, R269). -/
def coldReceived (p : PortId) (f : ColdStartFrame) (s : State) : State :=
  let c := busCfg s
  takeSync p f.head 2 (f.code == syncCode c 0x31 f.head (coldBody f)) (f.planId == c.planId) (fun s => coldIn s p f) s

/-- COLD_START_RECEIVED (R268). -/
def execColdStartReceived (p : PortId) (f : ColdStartFrame) (s : State) : Host.Outcome State Fault Refusal :=
  .next (whenOn s (coldReceived p f))

/-- A SYNC in a port: in LISTEN it begins integration, else a deviation within ±8 µs is a value; the guardian measures it on
its own timeline (R269, R271, R273, R276). -/
def syncIn (s0 : State) (p : PortId) (f : SyncFrame) : State :=
  let s := sendCommitted s0 p f.arriveNs
  let P0 := port s p
  let id := senderNode f.head
  let P := { P0 with heard := true, guard := guardValue id (10 * f.guardTen) P0.guard }
  match P.node with
  | .listen => setPort s p (integrate id f.roundFull (f.sentNs - syncStart s p f.head.sender) P)
  | _ =>
    let ids := if 8000 < f.head.devNs.natAbs || P.syncs.contains id then P.syncs else P.syncs ++ [id]
    setPort s p (putValue id f.head.devNs { P with syncs := ids })

/-- SYNC_RECEIVED: a frame outside its slot or the acceptance window of ±1 µs is counted and serves the correction within
±8 µs (R229, R273). -/
def syncReceived (p : PortId) (f : SyncFrame) (s : State) : State :=
  let c := busCfg s
  takeSync p f.head 1 (f.code == syncCode c 0x30 f.head (syncBody f)) (f.planId == c.planId) (fun s => syncIn s p f) s

/-- SYNC_RECEIVED (R273). -/
def execSyncReceived (p : PortId) (f : SyncFrame) (s : State) : Host.Outcome State Fault Refusal :=
  .next (whenOn s (syncReceived p f))

/-- A round of a node after its correction: whether it qualifies for integration, whether values were few, whether
nothing was heard; the cold-start phase ends with values from 3 nodes (R264, R271, R277). The node counts itself (R273), so
in the cold-start phase its one value is there in every round, also in those in which the leader does not send. The next
boundary moves by the correction and the rate (R274). -/
def nodeRound (ns : Nat) (c : Int) (P : Port) : Port :=
  let n := P.values.length + 1
  let enough := P.coldPhase || 3 ≤ n
  let cold := P.coldPhase && n < 3
  let moved := if c.natAbs ≤ 4000 then c else 0
  { P with goodRds := if P.node = .integrating && c.natAbs ≤ 1000 && enough then P.goodRds + 1 else 0,
           quietRds := if P.heard then 0 else P.quietRds + 1,
           fewRds := if !cold && n < 3 then P.fewRds + 1 else 0,
           settled := true, coldPhase := cold, lastVals := n, lastSyncs := P.syncs.length, values := [], syncs := [], heard := false,
           round := P.round + 1, boundaryNs := P.boundaryNs + ns + moved + ns * P.rate / 100000000,
           sending := none, sent := [] }

/-- The port whose bus time a hub reports and marks: the lower-numbered integrated one (log 41). -/
def marksPort (H : Hub) (upper : Bool) : Bool :=
  if upper then H.hi.node == .integrated && H.lo.node != .integrated else H.lo.node == .integrated

/-- HUB_ROUND_BOUNDARY of a port whose node holds a boundary: the correction, the guardian's judgement, the next round, and
a boundary mark to each lane (R201, R254, R273, R274). -/
def hubBoundary (p : PortId) (atNs : Int) (s : State) : State :=
  let P := port s p
  if !(hub s (portHub p)).fwRunning || !P.known then s
  else
    let ns := roundNs s
    let c := midpoint (0 :: P.values.map (·.2))
    let P1 := nodeRound ns c (correct ns c P)
    let s1 := setPort s p { P1 with guard := guardRound P.node ns atNs P.guard }
    modHub s1 (portHub p) fun H =>
      { H with round := P1.round, markOut := if marksPort H (portUpper p) then allLanes else H.markOut }

/-- HUB_ROUND_BOUNDARY (R274). -/
def execHubRoundBoundary (p : PortId) (atNs : Int) (s : State) : Host.Outcome State Fault Refusal :=
  .next (whenOn s (hubBoundary p atNs))

/-- A hub of a running group integrates only to a bus at or ahead of the lanes' round count (R279). -/
def busAhead (s : State) (P : Port) : Bool :=
  !(groupRuns s.grp && s.grp.roundFixed) || s.grp.round.toNat ≤ P.round.toNat

/-- NODE_INTEGRATED: two qualifying rounds, or a leader that received SYNC from two other nodes in a round (R264, R271). The
lanes take a first round count from it, and a higher one at their next boundary (R279, R522). -/
def nodeIn (p : PortId) (s : State) : State :=
  let P := port s p
  let ok := (P.node == .integrating && 2 ≤ P.goodRds) || (P.node == .leading && (2 ≤ P.lastSyncs || 2 ≤ P.syncs.length))
  if (hub s (portHub p)).fwRunning && ok && busAhead s P then
    let s1 := setPort s p { P with node := .integrated, collisions := 0, attempt := 0 }
    let s2 := if groupRuns s1.grp && s1.grp.roundFixed && s1.grp.round < P.round then
        modGrp s1 fun g => { g with adoptRound := some P.round }
      else s1
    fixFromBus s2
  else s

/-- NODE_INTEGRATED (R271). -/
def execNodeIntegrated (p : PortId) (s : State) : Host.Outcome State Fault Refusal := .next (whenOn s (nodeIn p))

/-- A leave rule of R277 holds, or an integrating node has heard nothing for 2 rounds (R264). -/
def mustLeave (P : Port) : Bool :=
  match P.node with
  | .integrated => 3 ≤ P.missRds || 4 ≤ P.fewRds || 3 ≤ P.guard.rejected
  | .integrating => 2 ≤ P.quietRds
  | _ => false

/-- LEAVE_INTEGRATION (R277). -/
def leave (p : PortId) (s : State) : State :=
  if mustLeave (port s p) then modPort s p fun P => toListen P.boundaryNs P else s

/-- LEAVE_INTEGRATION (R277). -/
def execLeaveIntegration (p : PortId) (s : State) : Host.Outcome State Fault Refusal := .next (whenOn s (leave p))

/-- GUARDIAN_LOCKED: 3 consecutive accepted boundaries of an integrated hub (R253). -/
def guardLock (p : PortId) (s : State) : State :=
  modPort s p fun P =>
    if P.guard.st = .listen && P.node = .integrated && 3 ≤ P.guard.accepted then
      { P with guard := { P.guard with st := .locked } }
    else P

/-- GUARDIAN_LOCKED (R253). -/
def execGuardianLocked (p : PortId) (s : State) : Host.Outcome State Fault Refusal := .next (whenOn s (guardLock p))

/-- GUARDIAN_LISTEN: 3 consecutive rejected boundaries (R253). -/
def guardUnlock (p : PortId) (s : State) : State :=
  modPort s p fun P =>
    if P.guard.st = .locked && 3 ≤ P.guard.rejected then
      { P with guard := { guardListen P.guard with rejected := P.guard.rejected } }
    else P

/-- GUARDIAN_LISTEN (R253). -/
def execGuardianListen (p : PortId) (s : State) : Host.Outcome State Fault Refusal := .next (whenOn s (guardUnlock p))

/-- GUARDIAN_SELF_CHECK_FAIL: the guardian is CLOSED and the transmitter held off (R253). -/
def guardFail (p : PortId) (s : State) : State :=
  modPort s p fun P => { P with sending := none, guard := { P.guard with st := .closed, accepted := 0, isOpen := false } }

/-- GUARDIAN_SELF_CHECK_FAIL (R253). -/
def execGuardianSelfCheckFail (p : PortId) (s : State) : Host.Outcome State Fault Refusal :=
  .next (whenOn s (guardFail p))

/-- A slot is the port's own: its hub's sync slot, or a downlink slot; OWNER of a downlink slot is a frame number, and the
model takes every downlink slot as its own port's (R231; DESIGN CHOICE, log 117). -/
def ownSlot (s : State) (p : PortId) (k : Nat) : Bool :=
  (slotAt s p k).any fun x =>
    (x.kind == 1 && x.owner == nodeField (hubNode (portHub p))) || x.kind == 2

/-- GUARDIAN_WINDOW_OPEN of an own slot, in a round whose boundary the guardian has accepted (R254, R276). -/
def windowOpen (p : PortId) (k : Nat) (s : State) : State :=
  modPort s p fun P =>
    if P.guard.st = .locked && !P.guard.rejectNow && ownSlot s p k then { P with guard := { P.guard with isOpen := true } }
    else P

/-- GUARDIAN_WINDOW_OPEN (R254). -/
def execGuardianWindowOpen (p : PortId) (slot : Nat) (s : State) : Host.Outcome State Fault Refusal :=
  .next (whenOn s (windowOpen p slot))

/-- The instant at which a guardian closes a slot, in ns after its START: the frame time and 0.25 µs (R254). -/
def closeNs (x : SlotCfg) : Int := 10 * (x.len : Int) - 1000 + 250

/-- GUARDIAN_WINDOW_CLOSE: a frame whose last byte leaves later, because it started late or is too long for the slot, is cut
and counted (R254). -/
def windowClosed (p : PortId) (k : Nat) (s : State) : State :=
  let P := port s p
  if P.guard.st = .locked && P.guard.isOpen && ownSlot s p k then
    let shut := { P with sending := none, guard := { P.guard with isOpen := false } }
    match P.sending with
    | some f =>
      if (slotAt s p k).any fun x => closeNs x < f.endsNs then discard (setPort s p { shut with sent := P.sent.filter (· != f) }) p 10
      else setPort s p shut
    | none => setPort s p shut
  else s

/-- GUARDIAN_WINDOW_CLOSE (R254). -/
def execGuardianWindowClose (p : PortId) (slot : Nat) (s : State) : Host.Outcome State Fault Refusal :=
  .next (whenOn s (windowClosed p slot))

/-- PORT_LINK_CHANGE: the port is up only at 1 Gbit/s full duplex, else it stays down; a hub that runs reports it as down
(R225, log 118). -/
def linkChange (p : PortId) (up gigFull : Bool) (s : State) : State :=
  let on := (hub s (portHub p)).fwRunning
  let s1 := modHub s (portHub p) (hubRaw (portUpper p).toNat (port s p).linkUp (up && gigFull))
  modPort s1 p fun P => { P with linkUp := up && gigFull, toldDown := if on then !(up && gigFull) else P.toldDown }

/-- PORT_LINK_CHANGE (R225). -/
def execPortLinkChange (p : PortId) (up : Bool) (gigFull : Bool) (s : State) : Host.Outcome State Fault Refusal :=
  .next (whenOn s (linkChange p up gigFull))

/-! ## Downlink frames (R234-R236) -/

/-- The payload that at least two seats sent identically (R236). -/
def agreedPayload (t : Tele) : Option (List Byte) :=
  let ps := (t.s1.toList ++ t.s2.toList ++ t.s3.toList).map (·.payload)
  ps.find? fun x => 2 ≤ (ps.filter (· == x)).length

/-- A share field: as the seat sent it, 0 for a vacant seat (R236). -/
def shareField (x : Option TeleShare) : List Byte := beBytes 4 (x.elim 0 fun y => y.share.toNat)

/-- A telegram on the wire (R234). -/
def teleBytes (t : Tele) (p : List Byte) : List Byte :=
  subHeader t.addr p.length t.kind t.sq ++ p ++ shareField t.s1 ++ shareField t.s2 ++ shareField t.s3

/-- The stations of a segment by frame: in address order, at most DL_PACK_MAX bytes of telegrams a frame (R235). `room`
is what the present frame still takes. No table carries the frame numbers Kacel assigns: each frame takes as many stations as
fit (DESIGN CHOICE, log 119). -/
def packFrames (maxLen : Nat) : List StationCfg → Nat → List Nat → List (List Nat)
  | [], _, cur => [cur]
  | x :: r, room, cur =>
    let n := 20 + x.dlLen
    if n ≤ room || cur.isEmpty then packFrames maxLen r (room - n) (cur ++ [x.addr])
    else cur :: packFrames maxLen r (maxLen - n) [x.addr]

/-- A station put in address order. -/
def insertStation (x : StationCfg) : List StationCfg → List StationCfg
  | [] => [x]
  | y :: r => if x.addr ≤ y.addr then x :: y :: r else y :: insertStation x r

/-- The frames of a segment by the addresses they carry (R235). -/
def segFrames (c : Cfg) (seg : Nat) : List (List Nat) :=
  packFrames c.dlPackMax ((c.stations.filter fun x => segOf x.addr == seg).foldr insertStation []) c.dlPackMax []

/-- The number of a segment's downlink frames in the plan. -/
def lastFrame (c : Cfg) (seg : Nat) : Nat := ((planOf c seg).filter fun x => x.kind == 2).length - 1

/-- The telegrams of a downlink frame: those its stations are assigned to; the last frame also carries those of granted
stations without an entry, and the grants and revocations (R235; log 45). -/
def frameTeles (c : Cfg) (H : Hub) (seg number : Nat) (round : DWord) : List Tele :=
  let own := ((segFrames c seg)[number]?).getD []
  let data := own.filterMap fun a => tblGet H.tele a
  let last := number == lastFrame c seg
  let extra := if last then (H.tele.filter fun e => segOf e.1 == seg && !c.stations.any fun x => x.addr == e.1).map (·.2)
    else []
  let grants := if last then H.grantTele.filter fun t => segOf t.addr == seg else []
  (data ++ extra ++ grants).filter fun t => t.sq == round.setWidth 32

/-- The body of a downlink frame, padded with 0xFF to the IEEE 802.3 minimum (R234). -/
def downBody (ts : List Tele) : List Byte :=
  let b := ts.flatMap fun t => match agreedPayload t with
    | some p => teleBytes t p
    | none => []
  b ++ List.replicate (30 - b.length) 0xFF

/-- The telegrams left out because no two seats agreed (R236). -/
def omitted (ts : List Tele) : Nat := (ts.filter fun t => (agreedPayload t).isNone).length

/-- A downlink frame sent in its slot (R228, R234, R236, R256). -/
def sendDown (s : State) (p : PortId) (k number : Nat) (startNs : Int) : State :=
  let P := port s p
  let ts := frameTeles (busCfg s) (hub s (portHub p)) (portSeg p) number P.round
  if ts.isEmpty then s
  else
    let s1 := modHub s (portHub p) fun H => { H with counts := { H.counts with
      teleOmit := satInc H.counts.teleOmit (omitted ts) } }
    let s2 := modPort s1 p fun P => { P with txSeq := P.txSeq + 1 }
    transmit s2 p (txFrame k startNs (frameBytes p (ownHead s p 3 k P.txSeq P.round) (downBody ts)))

/-- A leader sends COLD_START in its sync slot every second round (R264, R266); a running group's count that has gone on
since it entered LEADING is proposed as it is now (R267). -/
def leadSend (s : State) (p : PortId) : State :=
  let P := port s p
  if leadRounds P = 0 && P.leadFrom ≤ P.round then
    let own := proposal s (portHub p)
    let s1 := if P.round < own then setPort s p { P with round := own, leadFrom := own } else s
    sendCold s1 p (P.boundaryNs + ownStart s p)
  else s

/-- SLOT_START of one of the port's own slots (R232, R264): a leader's COLD_START; from an integrated hub whose guardian
is open, its SYNC or downlink frame. The frame starts at the hub's own START, which lies off the guardian's by the deviation
of the boundary, and as late after it as the command says. -/
def slotStart (p : PortId) (x : SlotTime) (s : State) : State :=
  let P := port s p
  let k := x.slot
  let start := P.guard.dev + x.late
  match slotAt s p k with
  | none => s
  | some c =>
    if !(hub s (portHub p)).fwRunning || !P.linkUp || !ownSlot s p k then s
    else match P.node, c.kind with
      | .leading, 1 => leadSend s p
      | .integrated, 1 =>
        if P.guard.isOpen then
          modHub (transmit s p (txFrame k start (syncWire p (ownSync s p P)))) (portHub p) fun H =>
            { H with syncSeq := H.syncSeq + 1 }
        else s
      | .integrated, 2 => if P.guard.isOpen then sendDown s p k c.owner start else s
      | _, _ => s

/-- SLOT_START (R232). -/
def execSlotStart (p : PortId) (at_ : SlotTime) (s : State) : Host.Outcome State Fault Refusal :=
  .next (whenOn s (slotStart p at_))

/-! ## Uplinks and claims (R238, R239, R246, R247) -/

/-- s is newer than t (R239). -/
def newer (a b : Word) : Bool := let d := (a - b).toNat; 1 ≤ d && d ≤ 2 ^ 31 - 1

/-- The lanes that take what the hubs pass: those that are loaded and not retired. -/
def hearing (s : State) : List LaneId := allLanes.filter fun l => (lane s l).loaded && (lane s l).nv.retire == 0

/-- A copy that failed its station code counts in the lanes' CODE_FAILS (R304). -/
def codeFail (addr : Nat) (L : Lane) : Lane :=
  let v := tblGetD L.stn addr {}
  { L with stn := tblSet L.stn addr { v with codeFails := min 255 (v.codeFails + 1) } }

/-- A lane takes an uplink that a hub passes: it checks the code and the newness again, and keeps its copy of the channel
(R239, R242). -/
def laneUplink (upper : Bool) (f : UplinkFrame) (L : Lane) : Lane :=
  let addr := f.head.sender
  if f.code ≠ stationCode L.cfg 0x20 f.head f.payload then codeFail addr L
  else if ((tblGetD L.stn addr {}).lastSeq.all fun q => newer f.head.seq q) then
    let old := tblGetD L.upl addr {}
    let u : Upl := { payload := f.payload, seq := f.head.seq }
    takesIn (inBytes f.payload) { L with upl := tblSet L.upl addr (if upper then { old with b := some u } else { old with a := some u }) }
  else L

/-- The payload length of a station's uplink: its entry's, or its grant's (R238). -/
def ulLenOf (s : State) (addr : Nat) : Option Nat :=
  match (busCfg s).stations.find? fun x => x.addr == addr with
  | some x => some x.ulLen
  | none => ((s.grp.grants.filter fun g => g.addr == addr).getLast?).map (·.len)

/-- An uplink that passes R229: the station code and its length, the newness; then it goes to the lanes (R239). A payload
that is not UPLINK_LEN bytes long counts as a failed code (DESIGN CHOICE, log 120). -/
def uplinkIn (p : PortId) (f : UplinkFrame) (s : State) : State :=
  let h := portHub p
  let addr := f.head.sender
  if f.head.ftype ≠ 4 then discard s p 5
  else if f.code ≠ stationCode (busCfg s) 0x20 f.head f.payload || ulLenOf s addr != some f.payload.length then
    modLanes (discard s p 8) (hearing s) fun _ => codeFail addr
  else if (tblGet (hub s h).passed addr).any fun q => !newer f.head.seq q.1 then discard s p 9
  else
    let s1 := modHub s h fun H => { H with passed := tblSet H.passed addr (f.head.seq, 0) }
    modLanes s1 (hearing s) fun _ => laneUplink (hubNum h == 1) f

/-- UPLINK_RECEIVED (R229, R239). -/
def uplinkReceived (p : PortId) (f : UplinkFrame) (s : State) : State := takeFrame p f.head (uplinkIn p f) s

/-- UPLINK_RECEIVED (R239). -/
def execUplinkReceived (p : PortId) (f : UplinkFrame) (s : State) : Host.Outcome State Fault Refusal :=
  .next (whenOn s (uplinkReceived p f))

/-- The first round whose build decides a claim (R247): it starts at least 100 µs after the claim slot's end. -/
def claimRound (s : State) (p : PortId) (k : Nat) (round : DWord) : Nat :=
  match slotAt s p k with
  | some x => if (x.start + x.len) / 100 + 100 ≤ 100 * roundTicks s then round.toNat + 1 else round.toNat + 2
  | none => round.toNat + 2

/-- A claim that passes R229: the code, by the hub and again by the lanes; then the lanes hold it (R242, R246, R247). -/
def claimIn (p : PortId) (f : UplinkFrame) (s : State) : State :=
  if f.head.ftype ≠ 5 then discard s p 5
  else if f.code ≠ stationCode (busCfg s) 0x21 f.head f.payload then discard s p 8
  else
    let r := claimRound s p f.head.slot s.grp.round
    modLanes s (hearing s) fun _ L =>
      if f.code ≠ stationCode L.cfg 0x21 f.head f.payload || L.claims.any fun c => c.2.head.sender == f.head.sender then L
      else takesIn (inBytes f.payload) { L with claims := L.claims ++ [(r, f)] }

/-- CLAIM_RECEIVED (R229, R246). -/
def claimReceived (p : PortId) (f : UplinkFrame) (s : State) : State := takeFrame p f.head (claimIn p f) s

/-- CLAIM_RECEIVED (R246). -/
def execClaimReceived (p : PortId) (f : UplinkFrame) (s : State) : Host.Outcome State Fault Refusal :=
  .next (whenOn s (claimReceived p f))

/-! ## The schedule owner (R245) -/

/-- The place in the owner list of the module that sent a downlink: its H0's node id, or the id 2 above for its H1
(log 46). -/
def ownerOf (c : Cfg) (id : Nat) : Option Nat :=
  (List.range c.owners.length).find? fun k => c.owners[k]? == some id || (c.owners[k]?).any fun o => o + 2 == id

/-- The telegrams of a downlink frame's body: address, kind and payload (R234). The list ends at STATION 0xFFFF or a
remainder shorter than 8 bytes; `n` bounds its length. -/
def teleList : Nat → List Byte → List (Nat × Nat × List Byte)
  | 0, _ => []
  | n + 1, bs =>
    let st := beNat (sliceBytes bs 0 2)
    let len := beNat (sliceBytes bs 2 1)
    if bs.length < 8 || st = 0xFFFF then []
    else (st, beNat (sliceBytes bs 3 1), sliceBytes bs 8 len) :: teleList n (bs.drop (20 + len))

/-- EFFECTIVE_ROUND with the upper half of a round count (R251). -/
def fullRound (now : DWord) (low : Nat) : DWord :=
  let r := now.toNat / 2 ^ 32 * 2 ^ 32 + low
  BitVec.ofNat 64 (if now.toNat ≤ r then r else r + 2 ^ 32)

/-- What another owner's GRANT or REVOKE tells a module: the station's slot from EFFECTIVE_ROUND on, or its end then (R248,
R249). -/
def hearGrant (seg : Nat) (now : DWord) (g : Group) (t : Nat × Nat × List Byte) : Group :=
  let slot := beNat (sliceBytes t.2.2 0 2)
  let eff := fullRound now (beNat (sliceBytes t.2.2 4 4))
  match t.2.1 with
  | 1 =>
    if slot = 0xFFFF || g.grants.any fun x => x.addr == t.1 && x.until_.isNone then g
    else { g with grants := g.grants ++
      [{ seg := seg, slot := slot, addr := t.1, len := beNat (sliceBytes t.2.2 2 2), since := eff }] }
  | 2 => endGrant t.1 eff g
  | _ => g

/-- A downlink frame that passes R229: its sender has been heard, and a module that is not the acting owner learns its grants
(R245, R248). -/
def downIn (p : PortId) (f : FrameHead) (body : List Byte) (s : State) : State :=
  if f.ftype ≠ 3 then discard s p 5
  else match ownerOf (busCfg s) (senderNode f) with
    | some k => modGrp s fun g =>
        let g1 := { g with ownerQuiet := tblSet g.ownerQuiet k 0 }
        if isOwner g then g1 else (teleList body.length body).foldl (hearGrant (portSeg p) (port s p).round) g1
    | none => s

/-- DOWNLINK_FRAME_RECEIVED: another module's downlink frame (R229, R245). -/
def downReceived (p : PortId) (f : DownFrame) (s : State) : State := takeFrame p f.head (downIn p f.head f.body) s

/-- DOWNLINK_FRAME_RECEIVED (R245). -/
def execDownlinkFrameReceived (p : PortId) (f : DownFrame) (s : State) : Host.Outcome State Fault Refusal :=
  .next (whenOn s (downReceived p f))

/-- This module's place among the owner and the stand-ins. -/
def ownPlace (c : Cfg) : Option Nat := (List.range c.owners.length).find? fun k => c.owners[k]? == some (hubNode .h0)

/-- The owners before a place have been quiet for 3 whole rounds: `ownerQuiet` is 0 in the round in which a place has been
heard, 1 in the round after it, and goes on from there. -/
def quietBefore (g : Group) (k : Nat) : Bool := (List.range k).all fun j => 4 ≤ tblGetD g.ownerQuiet j 0

/-- SCHEDULE_STANDIN_TAKEOVER: 3 consecutive rounds without a downlink of the owner or an earlier stand-in (R245). -/
def standIn (s : State) : State :=
  match ownPlace s.grp.cfg with
  | some k =>
    if 0 < k && s.grp.ownerIdx < k && quietBefore s.grp k && groupRuns s.grp then
      modGrp s fun g => { g with ownerIdx := k }
    else s
  | none => s

/-- SCHEDULE_STANDIN_TAKEOVER (R245). -/
def execScheduleStandinTakeover (s : State) : Host.Outcome State Fault Refusal := .next (whenOn s standIn)

/-- The owner list at a round boundary (R245): the role goes back to the first one heard in the round that ended, and
each one's silence counts on. -/
def ownerRound (g : Group) : Group :=
  let heard := (List.range g.ownerIdx).find? fun j => tblGet g.ownerQuiet j == some 0
  { g with ownerIdx := heard.getD g.ownerIdx
           ownerQuiet := (List.range g.cfg.owners.length).map fun j => (j, tblGetD g.ownerQuiet j 0 + 1) }

/-- SPARE_RELEASE_TIMEOUT: a granted slot without a valid uplink for SPARE_RELEASE rounds is revoked by the acting owner
(R249). -/
def spareRelease (addr : Nat) (s : State) : State :=
  match s.grp.grants.find? fun g => g.addr == addr && g.until_.isNone with
  | some t =>
    if s.grp.cfg.spareRel ≤ t.silent && isOwner s.grp && groupRuns s.grp then
      let msg : GrantMsg := { addr := addr, seg := t.seg, revoke := true, slot := t.slot, len := 0 }
      modGrp s fun g => { g with grantOut := insertMsg msg (g.grantOut.filter fun m => m.addr != addr) }
    else s
  | none => s

/-- SPARE_RELEASE_TIMEOUT (R249). -/
def execSpareReleaseTimeout (addr : Nat) (s : State) : Host.Outcome State Fault Refusal :=
  .next (whenOn s (spareRelease addr))

/-- UPLINK_SEQUENCE_CLEAR: 65,536 rounds without a valid uplink (R297). -/
def seqClear (addr : Nat) (s : State) : State :=
  if (seated s).any fun l => (tblGet (lane s l).stn addr).any fun v => 65536 ≤ v.sinceUp then
    let s1 := modLanes s allLanes fun _ L =>
      { L with stn := L.stn.map fun e => if e.1 = addr then (e.1, { e.2 with lastSeq := none }) else e,
               nv := { L.nv with upSeq := tblDel L.nv.upSeq addr } }
    bothHubs.foldl (fun s h => modHub s h fun H => { H with passed := tblDel H.passed addr }) s1
  else s

/-- UPLINK_SEQUENCE_CLEAR (R297). -/
def execUplinkSequenceClear (addr : Nat) (s : State) : Host.Outcome State Fault Refusal :=
  .next (whenOn s (seqClear addr))

end Sys2Proof.Machine
end

