-- ==== Sys2Proof/Machine/Bridge.lean ====
section
/-! DEFINITION. The host bridge: link, rings, doorbells, registers and interrupts (R391-R397, R416-R427, R444-R446, R550),
telemetry delivery (R437, R501), and the loss and adoption of a hub (R439-R445). -/

namespace Sys2Proof.Machine

open Sys2Proof

/-! ## Link (R416, R418, R439, R550) -/

/-- The host reaches the registers of a hub: its link is up and its firmware runs (R419, R550). R419 says that a hub whose
firmware has stopped or not run yet still answers reads, and nothing of writes: that such a write is dropped is the model's
(DESIGN CHOICE, log 110). -/
def hostReach (H : Hub) : Bool := H.fwRunning && H.pcieUp

/-- Replies that are not written yet are discarded: their commands end without one (R418). -/
def discardReplies (s : State) (h : HubId) : State :=
  let tags := (hub s h).pendRd.map (·.tag)
  let s1 := modHub s h fun H => { H with pendRd := [] }
  modGrp s1 fun g => setTags g h ((tagsOf g h).map fun r => if tags.contains r.tag then { r with done := true } else r)

/-- ENABLE goes to 0 at once: the indices and RUNNING with it (R394, R418). -/
def ringsOff (s : State) (h : HubId) : State :=
  let was := (hub s h).running
  let s1 := modHub s h fun H =>
    let H1 := { zeroIndices H with enable := false, running := false, draining := none }
    if was then raiseVec H1 2 else H1
  if was then setAlive s1 (peerHub h) false else s1

/-- A Function Level Reset: the host side of the hub alone (R418); write bursts that are held are gone with it. -/
def funcReset (h : HubId) (s : State) : State :=
  modHub (ringsOff (discardReplies s h) h) h fun H =>
    bufClasses.foldl (fun H c => modPool H c fun p => { p with writes := 0 }) H

/-- FUNCTION_LEVEL_RESET (R418). -/
def execFunctionLevelReset (h : HubId) (s : State) : Host.Outcome State Fault Refusal :=
  .next (whenOn s (funcReset h))

/-- PERST: the pin rises and the link trains, at 8 GT/s and two lanes or below it; else as a Function Level Reset (R416,
R550). -/
def perst (h : HubId) (degraded : Bool) (s : State) : State :=
  modHub (funcReset h s) h fun H =>
    { hubRaw 4 H.pcieUp true H with perstN := true, pcieUp := true, degraded := degraded, linkGone := false }

/-- PERST (R550). -/
def execPerst (h : HubId) (degraded : Bool) (s : State) : Host.Outcome State Fault Refusal :=
  .next (whenOn s (perst h degraded))

/-- PCIE_LINK_DOWN_TIMEOUT: down for 100 ms, reported to the lanes (R439). -/
def linkDown (h : HubId) (s : State) : State :=
  modHub s h fun H => { hubRaw 4 H.pcieUp false H with pcieUp := false, linkGone := H.fwRunning }

/-- PCIE_LINK_DOWN_TIMEOUT (R439). -/
def execPcieLinkDownTimeout (h : HubId) (s : State) : Host.Outcome State Fault Refusal := .next (whenOn s (linkDown h))

/-! ## Loss and adoption (R439-R445) -/

/-- What a lost hub served passes to the survivor (R440 step 1, R443): telemetry streams end, event channels are held. -/
def moveHandles (g : Group) (lost surv : HubId) : Group :=
  let mine := g.handles.filter fun x => x.server == lost
  let g1 := (mine.filter fun x => handleType x.word == 4).foldl closeHandle g
  { g1 with handles := g1.handles.map fun x =>
      if x.server = lost then { x with server := surv, held := handleType x.word == 2 } else x }

/-- The ring of an adopted event channel before the host releases it (R443). -/
def adoptedRing : CreateBlock → Option Ring
  | .eventCh base n => some { base := base, n := n }
  | .station _ => none
  | .mapping _ _ _ _ => none
  | .telemetry _ _ _ => none
  | .request _ _ => none
  | .counters _ _ => none
  | .other _ => none

/-- The survivor takes the rings of the event channels it has adopted and has not got yet; one it holds from an earlier adoption
keeps its held events and its drop count. -/
def takeRing (surv : HubId) (H : Hub) (x : Handle) : Hub :=
  match adoptedRing x.obj with
  | none => H
  | some r =>
    let i := handleIdx x.word
    if x.server ≠ surv || !x.held || (tblGet (if x.hub = surv then H.evch else H.peerEvch) i).isSome then H
    else if x.hub = surv then { H with evch := tblSet H.evch i r }
    else { H with peerEvch := tblSet H.peerEvch i r }

/-- The survivor resumes a mapping at the publication after the last (R443). -/
def takeMap (surv : HubId) (maps : Tbl MapSt) (H : Hub) (x : Handle) : Hub :=
  if x.server = surv && handleType x.word = 3 then
    match maps.find? fun e => e.2.handle == x.word with
    | some e =>
      if tblGet H.maps (mapKey x) = none then
        { H with maps := tblSet H.maps (mapKey x) { e.2 with adopted := x.hub != surv } }
      else H
    | none => H
  else H

/-- A mapping of a hub that has stopped: the last publication may be half written, so that from some byte on its slot holds what
lay there before; where is a free choice (R446, log 150). -/
def cutSlot (free : Nat) (m : MapSt) : MapSt :=
  let cut (new : List Byte) : List Byte :=
    if Config.freeBit free then new.take (Config.freeUs free) ++ m.under.drop (Config.freeUs free) else new
  if m.p % 2 = 0 then { m with slot0 := cut m.slot0 } else { m with slot1 := cut m.slot1 }

/-- The outcome status of a tag without a reply (R441); a pending service read ends unknown, stamped or not. -/
def lostStatus (r : TagRec) : Nat :=
  match r.status with
  | some st => st
  | none => if r.opcode = 0x0802 then stUnknown else if r.stamped.isSome || r.opcode = 0x0201 || r.opcode = 0x0202 then stOk else stUnknown

/-- The OUTCOME of one tag of the lost hub's window (R441). -/
def reportTag (surv : HubId) (s : State) (r : TagRec) : State :=
  let body := match r.stamped with
    | some v => if r.status.isNone && r.opcode == 0x0802 then [] else leBytes 8 v.toNat
    | none => if r.posted then r.result else []
  event s [surv] 0x8008 none r.tag r.handle (leBytes 2 (lostStatus r) ++ body)

/-- The records of the lost hub's window after its loss, and those of the survivor that the lost one reported for. -/
def moveTags (g : Group) (lost surv : HubId) : Group :=
  let g1 := setTags g lost ((tagsOf g lost).map fun r =>
    { r with moved := true, done := r.done || !r.replied, status := if r.replied then r.status else some (lostStatus r),
             replied := true })
  setTags g1 surv ((tagsOf g1 surv).map fun r => { r with moved := false })

/-- PEER_REPORTED of a hub; a change raises vector 2 (R421, R425). -/
def setReported (v : Bool) (H : Hub) : Hub := if H.reported = v then H else raiseVec { H with reported := v } 2

/-- The survivor adopts what the lost hub served and reports its in-flight commands (R440 steps 1 and 2, R441, R443). -/
def adopt (s : State) (lost surv : HubId) : State :=
  let maps := if (hub s lost).linkGone then (hub s lost).maps
    else (hub s lost).maps.map fun e => (e.1, cutSlot s.free e.2)
  let open_ := (tagsOf s.grp lost).filter fun r => !r.replied && !r.moved
  let s1 := modGrp s fun g => moveTags (moveHandles g lost surv) lost surv
  let s2 := modHub s1 surv fun H =>
    let H1 := s1.grp.handles.foldl (takeMap surv maps) (s1.grp.handles.foldl (takeRing surv) H)
    setReported false { H1 with adoptAt := some (s.grp.groupTime.toNat, freeMoment s, s.grp.round) }
  refreshOp (useFree (open_.foldl (reportTag surv) s2))

/-- HUB_LOST (R439): a hub whose link the lanes know to be down stays on the bus; one that has sent no status message
for a round has stopped, and what it had not passed to the lanes is gone (R446). -/
def hubLost (h : HubId) (s : State) : State :=
  let H := hub s h
  if H.lost || (seated s).isEmpty then s
  else
    let s1 := setAlive s (peerHub h) false
    let s2 := modHub s1 h fun H =>
      if H.linkGone then { H with lost := true }
      else { stopHub H with lost := true }
    let P := hub s2 (peerHub h)
    let s3 := if P.fwRunning && !P.lost then adopt s2 h (peerHub h) else s2
    modHub s3 h fun H =>
      if H.linkGone then { hostGone H with lost := true }
      else { H with maps := [], streams := [], evch := [], peerEvch := [], pendRd := [], adoptAt := none }

/-- HUB_LOST (R439). -/
def execHubLost (h : HubId) (s : State) : Host.Outcome State Fault Refusal := .next (whenOn s (hubLost h))

/-- Every vector but 2 masked (R440, R444, D-05). -/
def maskVectors (H : Hub) : Hub :=
  { H with vecs := Vector.ofFn fun i : Fin 16 => { H.vecs[i] with mask := H.vecs[i].mask || i.val != 2 } }

/-- ADOPTION_COMPLETE of the survivor h (R440 step 3): the flags, the count, the masks, vector 2, and the RECOVERY_END
record (R517, R531). -/
def adoptionDone (h : HubId) (s : State) : State :=
  match (hub s h).adoptAt with
  | none => s
  | some (t0, u0, r0) =>
    let s1 := modHub s h fun H =>
      let H1 := maskVectors { H with adoptAt := none, serving := true, reported := true, adoptions := H.adoptions + 1 }
      raiseVec H1 2
    let us := spanUs t0 u0 s1.grp.groupTime.toNat (freeMoment s1)
    refreshOp (recoveryEnd (useFree s1) 5 0 0 r0 us)

/-- ADOPTION_COMPLETE (R440). -/
def execAdoptionComplete (h : HubId) (s : State) : Host.Outcome State Fault Refusal :=
  .next (whenOn s (adoptionDone h))

/-! ## Rings and doorbells (R393-R397, R443) -/

/-- RING_ENABLE: ENABLE goes from 0 to 1 (R394). -/
def ringEnable (h : HubId) (s : State) : State :=
  if hostReach (hub s h) && !(hub s h).enable then ringsEnable s h else s

/-- RING_ENABLE (R394). -/
def execRingEnable (h : HubId) (s : State) : Host.Outcome State Fault Refusal := .next (whenOn s (ringEnable h))

/-- RING_DISABLE: ENABLE goes from 1 to 0; the fetched commands finish first (R394). -/
def ringDisable (h : HubId) (s : State) : State :=
  let H := hub s h
  if !hostReach H || !H.enable then s
  else if H.running then ringsEnd (setHub s h { H with enable := false, draining := some true }) h
  else setHub s h { zeroIndices H with enable := false }

/-- RING_DISABLE (R394). -/
def execRingDisable (h : HubId) (s : State) : Host.Outcome State Fault Refusal := .next (whenOn s (ringDisable h))

/-- An entry of the command ring whose opcode is unknown or reserved: fetched in its turn, its header checked, and refused
(R401, R402, R414). -/
def unknownCmd (s : State) (x : Nat × Hdr) : State :=
  let hd := x.2
  if !fetchable s hd 0 then waitInRing s { hd := hd, opcode := x.1, cmd := none }
  else
    refuse (fetchCmd s hd) hd x.1 (if hd.version ≠ 1 || hd.flagRsv ≠ 0 || hd.status ≠ 0 then stBadHeader else 0x0010)

/-- COMMAND_DOORBELL: CMD_PROD written; the entries of unknown opcodes among those fetched now (R393, R401). An opcode that
R408 lists comes as its own command. -/
def doorbell (h : HubId) (v : Word) (unknown : List (Nat × Hdr)) (s : State) : State :=
  if hostReach (hub s h) then
    (unknown.filter fun x => x.2.hub == h && !listedOpcodes.contains x.1).foldl unknownCmd (modHub s h fun H => { H with cmdProd := v })
  else s

/-- COMMAND_DOORBELL (R393). -/
def execCommandDoorbell (h : HubId) (v : BitVec 32) (unknown : List (Nat × Hdr)) (s : State) :
    Host.Outcome State Fault Refusal := .next (whenOn s (doorbell h v unknown))

/-- A register write of the host that reaches its hub. -/
def hostWrite (h : HubId) (s : State) (f : Hub → Hub) : State := if hostReach (hub s h) then modHub s h f else s

/-- RPL_CONS_WRITE (R393, R396). -/
def execRplConsWrite (h : HubId) (v : BitVec 32) (s : State) : Host.Outcome State Fault Refusal :=
  .next (whenOn s fun s => hostWrite h s fun H => { H with rpl := ringConsume H.rpl v })

/-- SEV_CONS_WRITE: EVENTS_LOST and the held events follow (R397). -/
def sevCons (h : HubId) (v : Word) (s : State) : State :=
  hostWrite h s fun H =>
    let H1 := { H with sev := ringConsume H.sev v }
    if ringsOn H1 then drainSev s.grp.round H1 else H1

/-- SEV_CONS_WRITE (R397). -/
def execSevConsWrite (h : HubId) (v : BitVec 32) (s : State) : Host.Outcome State Fault Refusal :=
  .next (whenOn s (sevCons h v))

/-- EVCH_CONS_WRITE likewise, on a channel of the hub's own; a channel that waits for its release writes nothing
(R397, R443). -/
def evchCons (h : HubId) (e : Fin 64) (v : Word) (s : State) : State :=
  let waits := s.grp.handles.any fun x => x.server == h && x.hub == h && x.held && handleIdx x.word == e.val
  hostWrite h s fun H =>
    let t := match tblGet H.evch e.val with
      | some r => tblSet H.evch e.val (ringConsume r v)
      | none => H.evch
    let H1 := { H with evchCons := H.evchCons.set e.val v e.isLt, evch := t }
    if ringsOn H1 && !waits then drainChan s.grp.round false e.val H1 else H1

/-- EVCH_CONS_WRITE (R397). -/
def execEvchConsWrite (h : HubId) (e : Fin 64) (v : BitVec 32) (s : State) : Host.Outcome State Fault Refusal :=
  .next (whenOn s (evchCons h e v))

/-- A released ring: it goes on from the index written, EVENTS_LOST with all ones first, then what was held, then the
count of what was dropped (R443). -/
def releaseRing (round : DWord) (v : Word) (r : Ring) : Ring :=
  { r with prod := v, cons := v, out := [], drops := 0,
           held := lostEntry round 0xFFFFFFFF :: r.held ++ (if r.drops = 0 then [] else [lostEntry round r.drops]) }

/-- The first write of PEER_EVCH_CONS releases the channels with that index that wait for it; a later one frees room
(R422, R443). -/
def peerEvchCons (h : HubId) (e : Fin 64) (v : Word) (s : State) : State :=
  if !hostReach (hub s h) then s
  else
    let i := e.val
    let mine (x : Handle) : Bool := x.server == h && handleType x.word == 2 && handleIdx x.word == i && x.held
    let rel := s.grp.handles.filter mine
    let r := s.grp.round
    let s1 := modHub s h fun H => { H with peerCons := H.peerCons.set i v e.isLt }
    if rel.isEmpty then
      modHub s1 h fun H =>
        match tblGet H.peerEvch i with
        | none => H
        | some x =>
          let H1 := { H with peerEvch := tblSet H.peerEvch i (ringConsume x v) }
          if ringsOn H1 then drainChan r true i H1 else H1
    else
      let s2 := modGrp s1 fun g => { g with handles := g.handles.map fun x => if mine x then { x with held := false } else x }
      rel.foldl (fun s x => modHub s h fun H =>
        let peer := x.hub != h
        let put (t : Tbl Ring) : Tbl Ring := match tblGet t i with
          | some y => tblSet t i (releaseRing r v y)
          | none => t
        let H1 := if peer then { H with peerEvch := put H.peerEvch } else { H with evch := put H.evch }
        if ringsOn H1 then drainChan r peer i H1 else H1) s2

/-- PEER_EVCH_CONS_WRITE (R443). -/
def execPeerEvchConsWrite (h : HubId) (e : Fin 64) (v : BitVec 32) (s : State) : Host.Outcome State Fault Refusal :=
  .next (whenOn s (peerEvchCons h e v))

/-- A telemetry stream with its consumed index written; after drops the record of kind 0 follows once there is room
(R437). -/
def streamConsume (on : Bool) (round : DWord) (v : Word) (x : Stream) : Stream :=
  let y := { x with cons := v, out := x.out.drop (x.out.length - (x.prod - v).toNat) }
  let d : TlmRec := { kind := 0, source := y.source, round := round, body := leBytes 4 y.drops }
  if on && y.drops != 0 && tlmRoom y d then tlmAppend { y with drops := 0 } d else y

/-- TLM_CONS_WRITE (R437). -/
def tlmCons (h : HubId) (e : Fin 16) (v : Word) (s : State) : State :=
  hostWrite h s fun H =>
    let t := match tblGet H.streams e.val with
      | some x => tblSet H.streams e.val (streamConsume (ringsOn H) s.grp.round v x)
      | none => H.streams
    { H with tlmCons := H.tlmCons.set e.val v e.isLt, streams := t }

/-- TLM_CONS_WRITE (R437). -/
def execTlmConsWrite (h : HubId) (e : Fin 16) (v : BitVec 32) (s : State) : Host.Outcome State Fault Refusal :=
  .next (whenOn s (tlmCons h e v))

/-- TELEMETRY_SAMPLE_PERIOD_END: a running stream delivers the latest record of each kind (R501). -/
def samplePeriod (h : HubId) (t : Fin 16) (s : State) : State :=
  let free := itemFree s h .telemetry
  modHub s h fun H =>
    match tblGet H.streams t.val with
    | none => H
    | some x =>
      if x.running && hubServes H && ringsOn H then
        x.latest.foldl (fun H r => hubTlm free H t.val r) { H with streams := tblSet H.streams t.val { x with latest := [] } }
      else H

/-- TELEMETRY_SAMPLE_PERIOD_END (R501). -/
def execTelemetrySamplePeriodEnd (h : HubId) (stream : Fin 16) (s : State) : Host.Outcome State Fault Refusal :=
  .next (whenOn s (samplePeriod h stream))

/-! ## Registers (R8, R393, R394, R424) -/

/-- The low or the high half of an address written. -/
def setHalf (a : DWord) (high : Bool) (v : Word) : DWord :=
  if high then v ++ a.extractLsb' 0 32 else a.extractLsb' 32 32 ++ v

/-- A write of a ring register: the bases and sizes are ignored while RUNNING is 1 (R394). -/
def ringRegister (off : Nat) (v : Word) (H : Hub) : Hub :=
  match off with
  | 0x134 => { H with shadow := setHalf H.shadow false v }
  | 0x138 => { H with shadow := setHalf H.shadow true v }
  | _ =>
    if H.running then H
    else match off with
      | 0x100 => { H with cmdBase := setHalf H.cmdBase false v }
      | 0x104 => { H with cmdBase := setHalf H.cmdBase true v }
      | 0x108 => { H with cmdSize := v.setWidth 4 }
      | 0x110 => { H with rpl := { H.rpl with base := setHalf H.rpl.base false v } }
      | 0x114 => { H with rpl := { H.rpl with base := setHalf H.rpl.base true v } }
      | 0x118 => { H with rplSize := v.setWidth 4 }
      | 0x120 => { H with sev := { H.sev with base := setHalf H.sev.base false v } }
      | 0x124 => { H with sev := { H.sev with base := setHalf H.sev.base true v } }
      | 0x128 => { H with sevSize := v.setWidth 4 }
      | _ => H

/-- REGISTER_WRITE (R8, R380, R381, R393, R420): the ring registers and the host's Valuz channel; every other field
without a row of its own is read only or reserved. -/
def registerWrite (h : HubId) (off : Nat) (v : Word) (s : State) : State :=
  hostWrite h s fun H =>
    if 0x30C0 ≤ off && off < 0x3100 then modHubValuz H 3 fun c => valuzWrite c (off - 0x30C0) v true true
    else ringRegister off v H

/-- REGISTER_WRITE (R8). -/
def execRegisterWrite (h : HubId) (off : Nat) (v : BitVec 32) (s : State) : Host.Outcome State Fault Refusal :=
  .next (whenOn s (registerWrite h off v))

/-- A port without discard counts. -/
def clearDiscards (P : Port) : Port := { P with discard := Vector.replicate 16 0 }

/-- CNT_CLEAR (R424). -/
def execCntClear (h : HubId) (s : State) : Host.Outcome State Fault Refusal :=
  .next (whenOn s fun s => hostWrite h s fun H =>
    { H with counts := {}, lo := clearDiscards H.lo, hi := clearDiscards H.hi })

/-! ## Interrupts and DMA (R425, R426, R444, R446) -/

/-- MODERATION_HOLD_END: a vector with entries written during its hold is raised once (R426). -/
def holdEnd (vec : Fin 16) (H : Hub) : Hub :=
  let x := H.vecs[vec]
  let H1 := { H with vecs := H.vecs.set vec.val { x with hold := false, again := false } vec.isLt }
  if x.hold && x.again then raiseVec H1 vec.val else H1

/-- MODERATION_HOLD_END (R426). -/
def execModerationHoldEnd (h : HubId) (vec : Fin 16) (s : State) : Host.Outcome State Fault Refusal :=
  .next (whenOn s fun s => modHub s h (holdEnd vec))

/-- MSIX_MASK_CLEAR: a pending vector sends its message (R444). -/
def maskClear (vec : Fin 16) (H : Hub) : Hub :=
  let x := H.vecs[vec]
  let H1 := { H with vecs := H.vecs.set vec.val { x with mask := false, pending := false } vec.isLt }
  if x.pending then raiseVec H1 vec.val else H1

/-- MSIX_MASK_CLEAR (R444). -/
def execMsixMaskClear (h : HubId) (vec : Fin 16) (s : State) : Host.Outcome State Fault Refusal :=
  .next (whenOn s fun s => if (hub s h).pcieUp then modHub s h (maskClear vec) else s)

/-- DMA_ERROR of a host read (R446): counted; a failed command fetch stops the rings once the fetched commands have
ended; a failed read of Valuz channel 3 ends its scan. -/
def dmaError (h : HubId) (what : DmaKind) (s : State) : State :=
  let count (s : State) : State :=
    modHub s h fun H => { H with counts := { H.counts with dmaError := satInc H.counts.dmaError } }
  match what with
  | .cmdFetch =>
    let s1 := count s
    if ringsOn (hub s1 h) then ringsEnd (modHub s1 h fun H => { H with draining := some false }) h else s1
  | .block => count s
  | .valuz =>
    if ((hub s h).valuz.toList[3]?).any fun c => c.st == .busy then valuzComplete (.hub h) 3 [] false s else count s

/-- DMA_ERROR (R446). -/
def execDmaError (h : HubId) (what : DmaKind) (s : State) : Host.Outcome State Fault Refusal :=
  .next (whenOn s (dmaError h what))

end Sys2Proof.Machine
end

