-- ==== Sys2Proof/Machine/Host.lean ====
section
/-! DEFINITION. The host commands but those of updates and counters (R64, R98, R99, R104, R123-R133, R299-R304, R341, R372,
R373, R392, R403-R413, R433, R437, R526). -/

namespace Sys2Proof.Machine

open Sys2Proof

/-- PLEN is a given length. -/
def plenIs (hd : Hdr) (n : Nat) (_ : State) : Bool := hd.plen == n

/-! ## Identity and status (0x01xx) -/

/-- NOP: skipped unchecked in its turn, without a reply (R392, R402, R414). -/
def nopCmd (hd : Hdr) (s : State) : State :=
  if nextInRing s hd then fetchCmd s hd else waitInRing s { hd := hd, opcode := 0, cmd := some (.nop hd) }

/-- NOP (R392). -/
def execNop (hd : Hdr) (s : State) : Host.Outcome State Fault Refusal := .next (whenOn s (nopCmd hd))

/-- The order code in ASCII (R1). -/
def orderCode : List Byte := [0x4E, 0x58, 0x32, 0x34, 0x30, 0x33, 0x2D, 0x42, 0x31, 0x2D, 0x41]

/-- The reply of IDENTITY (R408). -/
def identityBytes (s : State) (h : HubId) : List Byte :=
  sliceBytes (sliceBytes orderCode 0 16 ++ leBytes 2 0xB1 ++ leBytes 4 (hub s h).fwVersion.toNat ++
    leBytes 4 Config.execVersion.toNat ++
    leBytes 2 (((seated s).head?).elim Config.safetyMajor.toNat fun l => runMajor (lane s l).nv) ++
    leBytes 1 (isSealed s).toNat ++ leBytes 1 (opCode s.mod.op) ++ leBytes 8 s.grp.cfg.imageId.toNat ++
    leBytes 8 s.grp.round.toNat ++ leBytes 4 s.grp.startCount) 0 64

/-- IDENTITY (R408). -/
def identityCmd (hd : Hdr) : State → State :=
  hostCmd (.identity hd) { opcode := 0x0101, maxRep := 64, allowed := inAll } hd (plenIs hd 0) anySeal fun s =>
    answer s hd 0x0101 stOk (identityBytes s hd.hub)

/-- IDENTITY (R408). -/
def execIdentity (hd : Hdr) (s : State) : Host.Outcome State Fault Refusal := .next (whenOn s (identityCmd hd))

/-- The four LANE_STATUS words a hub holds, L0 first (R64). -/
def laneWords (M : Mirror) : List Byte :=
  leBytes 8 M.lanes.l0.toNat ++ leBytes 8 M.lanes.l1.toNat ++ leBytes 8 M.lanes.l2.toNat ++ leBytes 8 M.lanes.l3.toNat

/-- LANE_STATUS (R64). -/
def laneStatusCmd (hd : Hdr) : State → State :=
  hostCmd (.laneStatus hd) { opcode := 0x0102, maxRep := 32, allowed := inAll } hd (plenIs hd 0) anySeal fun s =>
    answer s hd 0x0102 stOk (laneWords (hub s hd.hub).mirror)

/-- LANE_STATUS (R64). -/
def execLaneStatus (hd : Hdr) (s : State) : Host.Outcome State Fault Refusal := .next (whenOn s (laneStatusCmd hd))

/-- GROUP_STATUS (R104). -/
def groupStatusCmd (hd : Hdr) : State → State :=
  hostCmd (.groupStatus hd) { opcode := 0x0103, maxRep := 8, allowed := inAll } hd (plenIs hd 0) anySeal fun s =>
    answer s hd 0x0103 stOk (leBytes 8 (hub s hd.hub).mirror.group.toNat)

/-- GROUP_STATUS (R104). -/
def execGroupStatus (hd : Hdr) (s : State) : Host.Outcome State Fault Refusal := .next (whenOn s (groupStatusCmd hd))

/-- The reply of TILE_STATUS: the tile word and 16 channel words (R341). -/
def tileBytes (M : Mirror) : TileId → List Byte
  | .t0 => leBytes 8 M.tiles.a.toNat ++ M.chans.a.flatMap fun w => leBytes 2 w.toNat
  | .t1 => leBytes 8 M.tiles.b.toNat ++ M.chans.b.flatMap fun w => leBytes 2 w.toNat

/-- TILE_STATUS (R341). -/
def tileStatusCmd (hd : Hdr) (t : Nat) : State → State :=
  hostCmd (.tileStatus hd t) { opcode := 0x0104, maxRep := 40, allowed := inAll } hd (plenIs hd 1) anySeal fun s =>
    match tileOf? t with
    | some x => answer s hd 0x0104 stOk (tileBytes (hub s hd.hub).mirror x)
    | none => answer s hd 0x0104 stBadValue []

/-- TILE_STATUS (R341). -/
def execTileStatus (hd : Hdr) (tile : Nat) (s : State) : Host.Outcome State Fault Refusal :=
  .next (whenOn s (tileStatusCmd hd tile))

/-- The CONTEXT_STATUS word a hub holds (R131): before any report its Reset value; of a context the lanes do not report, ABSENT
with its number (R129). -/
def ctxWordHeld (M : Mirror) (n : Nat) : DWord :=
  tblGetD M.ctxs n (if M.sq = 0 then 0 else BitVec.ofNat 64 (n % 256))

/-- CONTEXT_STATUS (R131). -/
def contextStatusCmd (hd : Hdr) (n : Nat) : State → State :=
  hostCmd (.contextStatus hd n) { opcode := 0x0105, maxRep := 8, allowed := inAll } hd (plenIs hd 1) anySeal fun s =>
    answer s hd 0x0105 stOk (leBytes 8 (ctxWordHeld (hub s hd.hub).mirror n).toNat)

/-- CONTEXT_STATUS (R131). -/
def execContextStatus (hd : Hdr) (ctx : Nat) (s : State) : Host.Outcome State Fault Refusal :=
  .next (whenOn s (contextStatusCmd hd ctx))

/-- The Reset value of a STATION_STATUS word (R304). -/
def stnWordReset (addr : Nat) : DWord :=
  BitVec.ofNat 64 (packFields [(12, addr), (1, (2048 ≤ addr : Bool).toNat), (11, 0), (8, 255), (8, 255)])

/-- STATION_STATUS of the station of the handle (R304). -/
def stationStatusCmd (hd : Hdr) : State → State :=
  hostCmd (.stationStatus hd) { opcode := 0x0106, maxRep := 8, ty := some 1, allowed := inAll } hd (plenIs hd 0) anySeal fun s =>
    let a := handleIdx hd.handle
    answer s hd 0x0106 stOk (leBytes 8 (tblGetD (hub s hd.hub).mirror.stns a (stnWordReset a)).toNat)

/-- STATION_STATUS (R304). -/
def execStationStatus (hd : Hdr) (s : State) : Host.Outcome State Fault Refusal :=
  .next (whenOn s (stationStatusCmd hd))

/-! ## Handles (0x02xx) -/

/-- Length of a create command: 4 bytes and its block (R409, R433, R437, R459); of a type without a block, any (refused
as a value). -/
def createLen (hd : Hdr) : CreateBlock → Bool
  | .station _ => hd.plen == 8
  | .eventCh _ _ => hd.plen == 16
  | .mapping _ _ _ rs => hd.plen == 20 + 8 * rs.length
  | .telemetry _ _ _ => hd.plen == 20
  | .request _ _ => hd.plen == 8
  | .counters _ _ => hd.plen == 8
  | .other _ => 4 ≤ hd.plen

/-- The type a create block is for. -/
def createType : CreateBlock → Nat
  | .station _ => 1
  | .eventCh _ _ => 2
  | .mapping _ _ _ _ => 3
  | .telemetry _ _ _ => 4
  | .request _ _ => 5
  | .counters _ _ => 7
  | .other t => t

/-- The lowest free index of a type on a hub below a limit (R404). -/
def freeIdx (g : Group) (h : HubId) (ty limit : Nat) : Option Nat :=
  let used := (g.handles.filter fun x => x.hub == h && handleType x.word == ty).map fun x => handleIdx x.word
  (List.range (min limit (used.length + 1))).find? fun k => !used.contains k

/-- The points of some ranges, in range order (R433). -/
def rangePoints (rs : List (Nat × Nat)) : List Nat := rs.flatMap fun r => (List.range r.2).map (r.1 + ·)

/-- Total length of some ranges. -/
def rangesLen (rs : List (Nat × Nat)) : Nat := (rs.map (·.2)).foldl (· + ·) 0

/-- A mapping's block is within its limits and its points belong to the context (R433). -/
def mappingOk (c : Cfg) (n minUs : Nat) (base : DWord) (rs : List (Nat × Nat)) : Bool :=
  1 ≤ rs.length && rs.length ≤ 64 && minUs ≤ 1000000 && base.toNat % 4096 == 0 && 1 ≤ rangesLen rs &&
    rangesLen rs ≤ 4096 && (rangePoints rs).all fun p => (ctxPoints c n).any fun x => x.index == p

/-- Counters of a source: 16 of a lane, 8 of a hub. -/
def ctrCount (source : Nat) : Nat := if source < 4 then 16 else 8

/-- A counter set's block (R459): its source, this hub where it is a hub, and its mask. -/
def countersOk (h : HubId) (source : Nat) (mask : BitVec 16) : Bool :=
  source < 6 && (source < 4 || source == 4 + hubNum h) && mask.toNat < 2 ^ ctrCount source

/-- Some open set holds a counter of a mask of a source (R459). -/
def ctrTaken (g : Group) (source : Nat) (mask : BitVec 16) : Bool :=
  g.handles.any fun x => match x.obj with
    | .counters so m => so == source && (m &&& mask) != 0
    | _ => false

/-- The refusal of a create block (R129, R404, R409, R433, R437, R459); none when it may be created. -/
def createRefusal (s : State) (h : HubId) (cb : CreateBlock) : Option Nat :=
  let g := s.grp
  let full := 16384 ≤ g.handles.length
  let lack (b : Bool) : Option Nat := if b || full then some stNoResource else none
  match cb with
  | .station a =>
    if 4096 ≤ a then some stBadValue
    else lack (g.handles.any fun x => handleType x.word == 1 && handleIdx x.word == a)
  | .eventCh base n =>
    if base.toNat % 4096 ≠ 0 || n < 4 || 14 < n then some stBadValue else lack (freeIdx g h 2 64).isNone
  | .mapping n minUs base rs =>
    if n = 0 then some stBadValue
    else if (ctxCfg? g.cfg n).isNone then some stBadHandle
    else if !mappingOk g.cfg n minUs base rs then some stBadValue
    else lack (256 ≤ (hub s h).maps.length)
  | .telemetry so base n =>
    if 6 ≤ so || base.toNat % 4096 ≠ 0 || n < 4 || 14 < n then some stBadValue else lack (freeIdx g h 4 16).isNone
  | .request n ch =>
    if (ctxCfg? g.cfg n).isNone then some stBadHandle
    else if !g.cfg.reqChans.any fun r => r.ctx == n && r.chan == ch then some stBadValue
    else lack (g.handles.any fun x => x.obj == .request n ch)
  | .counters so mask =>
    if !countersOk h so mask then some stBadValue else lack (ctrTaken g so mask)
  | .other _ => some stBadValue

/-- The index of a new handle (R404). -/
def createIdx (g : Group) (h : HubId) : CreateBlock → Nat
  | .station a => a
  | .eventCh _ _ => (freeIdx g h 2 64).getD 0
  | .mapping _ _ _ _ => (freeIdx g h 3 16384).getD 0
  | .telemetry _ _ _ => (freeIdx g h 4 16).getD 0
  | .request _ _ => (freeIdx g h 5 16384).getD 0
  | .counters _ _ => (freeIdx g h 7 16384).getD 0
  | .other _ => 0

/-- What a hub sets up for a new handle. -/
def createIn (w : Word) (key idx : Nat) (cb : CreateBlock) (H : Hub) : Hub :=
  match cb with
  | .eventCh base n =>
    { H with evch := tblSet H.evch idx { base := base, n := n }, evchCons := H.evchCons.setIfInBounds idx 0 }
  | .mapping c minUs base rs =>
    { H with maps := tblSet H.maps key { handle := w, ctx := c, minUs := minUs, base := base, points := rangePoints rs } }
  | .telemetry so base n =>
    { H with streams := tblSet H.streams idx { handle := w, source := so, base := base, n := n },
             tlmCons := H.tlmCons.setIfInBounds idx 0 }
  | .station _ => H
  | .request _ _ => H
  | .counters _ _ => H
  | .other _ => H

/-- A stream created on a lane first delivers the lane's last 32 diagnostic records, oldest first (R530). -/
def pastDiags (s : State) (h : HubId) (idx : Nat) (cb : CreateBlock) : State :=
  match cb with
  | .telemetry so _ _ => match laneOf? so with
    | some l =>
      let ds := (lane s l).nv.diag
      (ds.drop (ds.length - 32)).foldl (fun s d => modHub s h fun H =>
        hubTlm (itemFree s h .telemetry) H idx { kind := 6, source := so, round := d.round, body := diagBody d.kind d.num d.args }) s
    | none => s
  | .station _ => s
  | .eventCh _ _ => s
  | .mapping _ _ _ _ => s
  | .request _ _ => s
  | .counters _ _ => s
  | .other _ => s

/-- CHANNEL_CREATE (R403-R405, R409). -/
def channelCreateCmd (hd : Hdr) (cb : CreateBlock) : State → State :=
  hostCmd (.channelCreate hd cb) { opcode := 0x0201, maxRep := 0, allowed := notStart } hd (fun _ => createLen hd cb) anySeal fun s =>
    match createRefusal s hd.hub cb with
    | some e => answer s hd 0x0201 e []
    | none =>
      let ty := createType cb
      let idx := createIdx s.grp hd.hub cb
      let w := handleWord ty (slotGen s.grp ty hd.hub idx) idx
      let x : Handle := { word := w, hub := hd.hub, server := hd.hub, obj := cb }
      let s1 := modGrp s fun g => { g with handles := g.handles ++ [x] }
      answerH (pastDiags (modHub s1 hd.hub (createIn w (mapKey x) idx cb)) hd.hub idx cb) hd 0x0201 w stOk []

/-- CHANNEL_CREATE (R409). -/
def execChannelCreate (hd : Hdr) (cb : CreateBlock) (s : State) : Host.Outcome State Fault Refusal :=
  .next (whenOn s (channelCreateCmd hd cb))

/-- A counter's ENABLE cleared (R407); bit 22 in a lane, bit 16 in a hub. -/
def stopCtr (bit : Nat) (c : PerfCtr) : PerfCtr := { c with sel := c.sel &&& ~~~ (BitVec.ofNat 32 (2 ^ bit)) }

/-- The counters of a mask changed. -/
def mapCtrs {n : Nat} (v : Vector PerfCtr n) (mask : BitVec 16) (f : PerfCtr → PerfCtr) : Vector PerfCtr n :=
  Vector.ofFn fun i : Fin n => if mask.getLsbD i.val then f v[i] else v[i]

/-- The counters of a set changed, in its lane or its hub (R459). -/
def modSet (s : State) (source : Nat) (mask : BitVec 16) (f : Bool → PerfCtr → PerfCtr) : State :=
  match laneOf? source with
  | some l => modLane s l fun L => { L with ctrs := { L.ctrs with ctr := mapCtrs L.ctrs.ctr mask (f true) } }
  | none =>
    let h := if source = 4 then HubId.h0 else .h1
    modHub s h fun H => { H with ctrs := mapCtrs H.ctrs mask (f false) }

/-- What ends with a handle (R407): pending reads, the event ring, the mapping, the stream, the counters. -/
def destroyWork (h : HubId) (x : Handle) (s : State) : State :=
  let idx := handleIdx x.word
  match x.obj with
  | .station _ =>
    let s1 := ((hub s h).pendRd.filter fun w => w.handle == x.word && w.opcode == 0x0802).foldl
      (fun s w => endRead s h w.tag stUnknown []) s
    bothHubs.foldl (fun s k => modHub s k fun H => { H with outbox := H.outbox.map (quietAct x.word) }) s1
  | .eventCh _ _ =>
    modHub s h fun H =>
      if x.server = x.hub then { H with evch := tblDel H.evch idx } else { H with peerEvch := tblDel H.peerEvch idx }
  | .mapping _ _ _ _ => modHub s h fun H => { H with maps := tblDel H.maps (mapKey x) }
  | .telemetry _ _ _ => modHub s h fun H => { H with streams := tblDel H.streams idx }
  | .counters so mask => modSet s so mask fun isLane => stopCtr (if isLane then 22 else 16)
  | .request _ _ => s
  | .other _ => s

/-- SERVING_PEER falls once no adopted handle is left (R421, R425, R445). -/
def servingEnds (h : HubId) (s : State) : State :=
  if (hub s h).serving && !s.grp.handles.any fun x => x.server == h && x.hub != h then
    modHub s h fun H => raiseVec { H with serving := false } 2
  else s

/-- CHANNEL_DESTROY (R407). -/
def channelDestroyCmd (hd : Hdr) : State → State :=
  hostCmd (.channelDestroy hd) { opcode := 0x0202, maxRep := 0, ty := some 0, allowed := notStart } hd (plenIs hd 0) anySeal fun s =>
    match openHandle s hd.hub hd.handle with
    | none => s
    | some x =>
      let s1 := modGrp (destroyWork hd.hub x s) fun g => closeHandle g x
      let s2 := if x.server = x.hub then s1 else servingEnds hd.hub s1
      answer s2 hd 0x0202 stOk []

/-- CHANNEL_DESTROY (R407). -/
def execChannelDestroy (hd : Hdr) (s : State) : Host.Outcome State Fault Refusal :=
  .next (whenOn s (channelDestroyCmd hd))

/-- The codes of R411 that stand for the whole module. -/
def wholeCodes : List Nat :=
  [0x8001, 0x8002, 0x8005, 0x8006, 0x8007, 0x8008, 0x8009, 0x800A, 0x800C]

/-- A selector fits a code (R410). -/
def selectorOk (code : Nat) (sel : Word) : Bool :=
  let v := sel.toNat
  if sel = selAll then wholeCodes.contains code || [0x8003, 0x8004].contains code || (0x8010 ≤ code && code ≤ 0x8016)
  else if code = 0x8010 then v < 2048 && v % 256 != 0
  else if code = 0x8011 then v < 4096
  else if 0x8012 ≤ code && code ≤ 0x8016 then v < 2
  else if code = 0x8003 || code = 0x8004 then 1 ≤ v && v ≤ 255
  else false

/-- The subscriptions of a handle changed. -/
def modSubs (s : State) (h : HubId) (w : Word) (f : List (Nat × Word) → List (Nat × Word)) : State :=
  modGrp s fun g => { g with handles := g.handles.map fun x =>
    if x.word = w && x.server = h then { x with subs := f x.subs } else x }

/-- EVENT_SUBSCRIBE (R410). -/
def subscribeCmd (hd : Hdr) (code : Nat) (sel : Word) : State → State :=
  hostCmd (.eventSubscribe hd code sel) { opcode := 0x0203, maxRep := 0, ty := some 2, allowed := notStart } hd (plenIs hd 8) anySeal fun s =>
    let subs := (openHandle s hd.hub hd.handle).elim [] (·.subs)
    if !selectorOk code sel then answer s hd 0x0203 stBadValue []
    else if subs.contains (code, sel) then answer s hd 0x0203 stOk []
    else if 256 ≤ subs.length then answer s hd 0x0203 stNoResource []
    else answer (modSubs s hd.hub hd.handle (· ++ [(code, sel)])) hd 0x0203 stOk []

/-- EVENT_SUBSCRIBE (R410). -/
def execEventSubscribe (hd : Hdr) (code : Nat) (sel : BitVec 32) (s : State) : Host.Outcome State Fault Refusal :=
  .next (whenOn s (subscribeCmd hd code sel))

/-- EVENT_UNSUBSCRIBE: exactly that code and selector (R410). -/
def unsubscribeCmd (hd : Hdr) (code : Nat) (sel : Word) : State → State :=
  hostCmd (.eventUnsubscribe hd code sel) { opcode := 0x0204, maxRep := 0, ty := some 2, allowed := notStart } hd (plenIs hd 8) anySeal fun s =>
    if !selectorOk code sel then answer s hd 0x0204 stBadValue []
    else answer (modSubs s hd.hub hd.handle (·.filter fun x => x != (code, sel))) hd 0x0204 stOk []

/-- EVENT_UNSUBSCRIBE (R410). -/
def execEventUnsubscribe (hd : Hdr) (code : Nat) (sel : BitVec 32) (s : State) : Host.Outcome State Fault Refusal :=
  .next (whenOn s (unsubscribeCmd hd code sel))

/-! ## Contexts and values (0x03xx, 0x04xx) -/

/-- A context action stamped for the first eligible cycle start (R124, R130). -/
def stampCtx (s : State) (hd : Hdr) (opcode : Nat) (c : CtxCfg) (k : ActKind) : State :=
  stampReply s hd opcode (firstCycle c (firstRound s hd.us)) k

/-- CONTEXT_START (R129, R130). -/
def contextStartCmd (hd : Hdr) (n : Nat) : State → State :=
  hostCmd (.contextStart hd n) { opcode := 0x0301, maxRep := 8, allowed := inRun } hd (plenIs hd 1) anySeal fun s =>
    match ctxCfg? s.grp.cfg n with
    | none => answer s hd 0x0301 stBadHandle []
    | some c => stampCtx s hd 0x0301 c (.ctxStart n)

/-- CONTEXT_START (R130). -/
def execContextStart (hd : Hdr) (ctx : Nat) (s : State) : Host.Outcome State Fault Refusal :=
  .next (whenOn s (contextStartCmd hd ctx))

/-- CONTEXT_STOP: never of a vital context (R130). -/
def contextStopCmd (hd : Hdr) (n : Nat) : State → State :=
  hostCmd (.contextStop hd n) { opcode := 0x0302, maxRep := 8, allowed := inRun } hd (plenIs hd 1) anySeal fun s =>
    match ctxCfg? s.grp.cfg n with
    | none => answer s hd 0x0302 stBadHandle []
    | some c =>
      if c.vital then answer s hd 0x0302 stNotPermitted [] else stampCtx s hd 0x0302 c (.ctxStop n)

/-- CONTEXT_STOP (R130). -/
def execContextStop (hd : Hdr) (ctx : Nat) (s : State) : Host.Outcome State Fault Refusal :=
  .next (whenOn s (contextStopCmd hd ctx))

/-- CONTEXT_RESTART (R130). -/
def contextRestartCmd (hd : Hdr) (n : Nat) : State → State :=
  hostCmd (.contextRestart hd n) { opcode := 0x0303, maxRep := 8, allowed := inRun } hd (plenIs hd 1) anySeal fun s =>
    match ctxCfg? s.grp.cfg n with
    | none => answer s hd 0x0303 stBadHandle []
    | some c => stampCtx s hd 0x0303 c (.ctxRestart n)

/-- CONTEXT_RESTART (R130). -/
def execContextRestart (hd : Hdr) (ctx : Nat) (s : State) : Host.Outcome State Fault Refusal :=
  .next (whenOn s (contextRestartCmd hd ctx))

/-- An activation is stamped for a round that a cycle does not start before, until it has taken effect: with AT_START, until
the next start (R136, R475, R478, R491). -/
def changeBarred (g : Group) (r : Nat) : Bool := g.session.any fun x => x.st == .planned && x.act.toNat ≤ r

/-- VALUE_CHANGE: n changes, all of them within their bounds (R132, R133). -/
def valueChangeCmd (hd : Hdr) (ctx n : Nat) (chg : List (Nat × Word)) : State → State :=
  hostCmd (.valueChange hd ctx n chg) { opcode := 0x0401, maxRep := 8, allowed := inRun } hd (plenIs hd (4 + 8 * n)) anySeal fun s =>
    let cs := chg.take n
    match ctxCfg? s.grp.cfg ctx with
    | none => answer s hd 0x0401 stBadHandle []
    | some c =>
      if n = 0 || 32 < n || !cs.all (changeOk s.grp.cfg ctx) then answer s hd 0x0401 stBadValue []
      else if changeBarred s.grp (cycleRound c (firstCycle c (firstRound s hd.us))) then
        answer s hd 0x0401 stNotPermitted []
      else stampCtx s hd 0x0401 c (.change ctx cs)

/-- VALUE_CHANGE (R133). -/
def execValueChange (hd : Hdr) (ctx : Nat) (n : Nat) (chg : List (Nat × BitVec 32)) (s : State) :
    Host.Outcome State Fault Refusal := .next (whenOn s (valueChangeCmd hd ctx n chg))

/-- A value as a seat holds it: as it stood at the end of its latest phase L, before one its image value (R408). -/
def heldValue (L : Lane) (c : CtxCfg) (t : Tunable) : Word :=
  match tblGet (ctxRun L c.num).vals t.index with
  | some v => v
  | none => laneWord L (c.base + t.off)

/-- One value of VALUE_READ: agreed by two seats, else that of the lowest-numbered seat (R408). -/
def readValue (s : State) (c : CtxCfg) (t : Tunable) : Word × Bool :=
  let vs := (seated s).map fun l => heldValue (lane s l) c t
  match vs.find? fun v => 2 ≤ (vs.filter (· == v)).length with
  | some v => (v, true)
  | none => (vs.headD 0, false)

/-- The AGREE word: bit i for value i (R408). -/
def agreeWord (bs : List Bool) : Nat := (bs.zipIdx.map fun x => if x.1 then 2 ^ x.2 else 0).foldl (· + ·) 0

/-- VALUE_READ (R408). -/
def valueReadCmd (hd : Hdr) (ctx n : Nat) (idx : List Nat) : State → State :=
  hostCmd (.valueRead hd ctx n idx) { opcode := 0x0402, maxRep := 132, allowed := inRun } hd (plenIs hd (4 + 4 * n)) anySeal fun s =>
    let is := idx.take n
    let ts := is.filterMap (tunable? s.grp.cfg ctx)
    match ctxCfg? s.grp.cfg ctx with
    | none => answer s hd 0x0402 stBadHandle []
    | some c =>
      if n = 0 || 32 < n || ts.length ≠ is.length then answer s hd 0x0402 stBadValue []
      else
        let vs := ts.map (readValue s c)
        answer s hd 0x0402 stOk ((vs.flatMap fun v => leBytes 4 v.1.toNat) ++ leBytes 4 (agreeWord (vs.map (·.2))))

/-- VALUE_READ (R408). -/
def execValueRead (hd : Hdr) (ctx : Nat) (n : Nat) (idx : List Nat) (s : State) : Host.Outcome State Fault Refusal :=
  .next (whenOn s (valueReadCmd hd ctx n idx))

/-! ## Telemetry (0x07xx) -/

/-- A stream of a handle changed. -/
def modStream (s : State) (hd : Hdr) (f : Stream → Stream) : State :=
  modHub s hd.hub fun H => match tblGet H.streams (handleIdx hd.handle) with
    | some x => { H with streams := tblSet H.streams (handleIdx hd.handle) (f x) }
    | none => H

/-- TELEMETRY_START: sample period 10-60,000 ms (R408, R501). -/
def telemetryStartCmd (hd : Hdr) (period : Nat) : State → State :=
  hostCmd (.telemetryStart hd period) { opcode := 0x0701, maxRep := 0, ty := some 4, allowed := notStart } hd (plenIs hd 4) anySeal fun s =>
    if period < 10 || 60000 < period then answer s hd 0x0701 stBadValue []
    else answer (modStream s hd fun x => { x with running := true, period := period, latest := [] }) hd 0x0701 stOk []

/-- TELEMETRY_START (R437). -/
def execTelemetryStart (hd : Hdr) (period : Nat) (s : State) : Host.Outcome State Fault Refusal :=
  .next (whenOn s (telemetryStartCmd hd period))

/-- TELEMETRY_STOP (R408). -/
def telemetryStopCmd (hd : Hdr) : State → State :=
  hostCmd (.telemetryStop hd) { opcode := 0x0702, maxRep := 0, ty := some 4, allowed := notStart } hd (plenIs hd 0) anySeal fun s =>
    answer (modStream s hd fun x => { x with running := false, latest := [] }) hd 0x0702 stOk []

/-- TELEMETRY_STOP (R408). -/
def execTelemetryStop (hd : Hdr) (s : State) : Host.Outcome State Fault Refusal :=
  .next (whenOn s (telemetryStopCmd hd))

/-! ## Requests and services (0x08xx) -/

/-- The image's channel of a request handle. -/
def reqChanOf (s : State) (hd : Hdr) : Option ReqChan :=
  match openHandle s hd.hub hd.handle with
  | none => none
  | some x => match x.obj with
    | .request n ch => s.grp.cfg.reqChans.find? fun r => r.ctx == n && r.chan == ch
    | _ => none

/-- The payload's length is within the channel's MAX_LEN and 64 bytes (R123, R402). -/
def requestLen (hd : Hdr) (payload : List Byte) (s : State) : Bool :=
  hd.plen == payload.length && 1 ≤ payload.length && payload.length ≤ (reqChanOf s hd).elim 64 fun r => min 64 r.maxLen

/-- REQUEST: stamped for the first eligible cycle with a free place on its channel (R124); a channel that the running
image no longer has takes nothing (R482). -/
def requestCmd (hd : Hdr) (payload : List Byte) : State → State :=
  hostCmd (.request hd payload) { opcode := 0x0801, maxRep := 8, ty := some 5, allowed := inRun } hd (requestLen hd payload) anySeal fun s =>
    match reqChanOf s hd with
    | none => answer s hd 0x0801 stBadValue []
    | some r => match ctxCfg? s.grp.cfg r.ctx with
      | none => answer s hd 0x0801 stBadHandle []
      | some c =>
        let idx := freeCycle s r.ctx r.chan r.depth ((queuedActions s).length + 1) (firstCycle c (firstRound s hd.us))
        stampReply s hd 0x0801 idx (.request r.ctx r.chan payload)

/-- REQUEST (R124). -/
def execRequest (hd : Hdr) (payload : List (BitVec 8)) (s : State) : Host.Outcome State Fault Refusal :=
  .next (whenOn s (requestCmd hd payload))

/-- SVC_LEN of the station of a handle, 0 without an entry. -/
def svcLenOf (s : State) (hd : Hdr) : Nat :=
  ((s.grp.cfg.stations.find? fun x => x.addr == handleIdx hd.handle).map (·.svcLen)).getD 0

/-- Requests that wait on a station channel: stamped or queued (R301). -/
def svcWaiting (s : State) (hd : Hdr) : Nat :=
  let p (a : Action) : Bool := match a.kind with
    | .service _ _ _ _ _ => a.handle == hd.handle
    | _ => false
  ((queuedActions s).filter p).length +
    ((tblGetD s.grp.svc (handleIdx hd.handle) {}).queue.filter fun q => q.handle == hd.handle).length

/-- SERVICE_READ: its reply waits for the station (R301, R303). -/
def serviceReadCmd (hd : Hdr) (param : BitVec 16) (len : Nat) : State → State :=
  hostCmd (.serviceRead hd param len) { opcode := 0x0802, maxRep := 64, items := 2, ty := some 1, allowed := inRun } hd (plenIs hd 4) anySeal fun s =>
    let a := handleIdx hd.handle
    if svcLenOf s hd < 8 || svcLenOf s hd < len + 8 then answer s hd 0x0802 stBadValue []
    else if 4 ≤ svcWaiting s hd then answer s hd 0x0802 stNoResource []
    else
      let w : Waiting := { tag := hd.tag, handle := hd.handle, opcode := 0x0802, flags := hdrFlags hd }
      stampAct (modHub s hd.hub fun H => { H with pendRd := H.pendRd ++ [w] }) hd (firstRound s hd.us)
        (.service a false param [] len)

/-- SERVICE_READ (R301). -/
def execServiceRead (hd : Hdr) (param : BitVec 16) (len : Nat) (s : State) : Host.Outcome State Fault Refusal :=
  .next (whenOn s (serviceReadCmd hd param len))

/-- PLEN of a write fits its data, and the data the station's service area (R300, R402). -/
def serviceWriteLen (hd : Hdr) (data : List Byte) (s : State) : Bool :=
  hd.plen == 4 + data.length && data.length ≤ svcLenOf s hd - 8

/-- SERVICE_WRITE: posted; never to a vital station (R303). -/
def serviceWriteCmd (hd : Hdr) (param : BitVec 16) (data : List Byte) : State → State :=
  hostCmd (.serviceWrite hd param data) { opcode := 0x0803, maxRep := 0, items := 2, ty := some 1, allowed := inRun } hd (serviceWriteLen hd data) anySeal fun s =>
    let a := handleIdx hd.handle
    if s.grp.cfg.stations.any fun x => x.addr == a && x.vital then answer s hd 0x0803 stNotPermitted []
    else if svcLenOf s hd < 8 then answer s hd 0x0803 stBadValue []
    else if 4 ≤ svcWaiting s hd then answer s hd 0x0803 stNoResource []
    else stampAct (accept s hd 0x0803) hd (firstRound s hd.us) (.service a true param data data.length)

/-- SERVICE_WRITE (R303). -/
def execServiceWrite (hd : Hdr) (param : BitVec 16) (data : List (BitVec 8)) (s : State) :
    Host.Outcome State Fault Refusal := .next (whenOn s (serviceWriteCmd hd param data))

/-! ## Maintenance (0x09xx) -/

/-- ROTATE_NOW (R98). -/
def rotateNowCmd (hd : Hdr) : State → State :=
  hostCmd (.rotateNow hd) { opcode := 0x0901, maxRep := 0, allowed := inRun } hd (plenIs hd 0) anySeal fun s =>
    if rotationOk s then startRotation (accept s hd 0x0901) (some (hd.hub, hd.tag))
    else answer s hd 0x0901 stNotPermitted []

/-- ROTATE_NOW (R98). -/
def execRotateNow (hd : Hdr) (s : State) : Host.Outcome State Fault Refusal := .next (whenOn s (rotateNowCmd hd))

/-- A revert hold-off or a rotation waits for the spare (R99). -/
def movePending (g : Group) : Bool := !g.holdoff.isEmpty || g.revertDue.isSome || g.rotDeferred

/-- LANE_SELF_TEST of a lane that may be tested is refused (R99). -/
def testRefused (s : State) (l : LaneId) : Bool :=
  let g := s.grp
  if (lane s l).nv.retire ≠ 0 then true
  else if (lane s l).selfTest.running then false
  else if isSeated s l then !(g.gst == .full && g.join.isNone)
  else if g.spare = some l then !(g.gst == .full && g.join.isNone && !movePending g)
  else g.join.any fun j => j.joiner == l

/-- LANE_SELF_TEST taken: a running test stands; a seated lane and the paired spare fence; a split spare unsplits first, its
window ended, and fences at the end of the hand-over (R59); a lane without a role runs the test (R99). -/
def laneTest (s : State) (l : LaneId) (tag : HubId × Word) : State :=
  let s1 := modLane s l fun L => { L with selfTest := { L.selfTest with tags := L.selfTest.tags ++ [tag] } }
  if (lane s l).selfTest.running || (lane s l).splitPend then s1
  else if (lane s l).st = .spareSplit then
    handOverIfDone (modLane s1 l fun L => { splitWindow L with unsplit := true, splitPend := true }) l
  else if isSeated s l || s.grp.spare = some l then fence s1 l 5 0 (vitalCycle s) 0xFFFF
  else modLane s1 l fun L => startSelfTest L true false L.selfTest.tags

/-- LANE_SELF_TEST (R98, R99). -/
def laneSelfTestCmd (hd : Hdr) (n : Nat) : State → State :=
  hostCmd (.laneSelfTest hd n) { opcode := 0x0902, maxRep := 0, allowed := inRun } hd (plenIs hd 1) anySeal fun s =>
    match laneOf? n with
    | none => answer s hd 0x0902 stBadValue []
    | some l =>
      if testRefused s l then answer s hd 0x0902 stNotPermitted []
      else laneTest (accept s hd 0x0902) l (hd.hub, hd.tag)

/-- LANE_SELF_TEST (R99). -/
def execLaneSelfTest (hd : Hdr) (lane : Nat) (s : State) : Host.Outcome State Fault Refusal :=
  .next (whenOn s (laneSelfTestCmd hd lane))

/-- A sealed module refuses a command that would change a sealed value (R402). -/
def sealCheck (s : State) : Option Nat := if isSealed s then some stSealed else none

/-- A seat whose hat differs from the equal hats of the other two (R372). -/
def oddHat (s : State) : Option LaneId :=
  (seated s).find? fun l =>
    match (seated s).filter (· != l) with
    | [a, b] => (lane s a).hat == (lane s b).hat && (lane s l).hat != (lane s a).hat
    | _ => false

/-- HAT_CONFIRM: three equal hats that equal the one entered seal the module (R372, R373). -/
def hatConfirmCmd (hd : Hdr) (hat : DWord) : State → State :=
  hostCmd (.hatConfirm hd hat) { opcode := 0x0903, maxRep := 0, allowed := inBench } hd (plenIs hd 8) sealCheck fun s =>
    if (seated s).length < 3 then answer s hd 0x0903 stNotPermitted []
    else if (seated s).all fun l => (lane s l).hat == hat then
      answer (modLanes s allLanes fun _ L =>
        { L with nv := { L.nv with sealRec := some { hat := hat, round := s.grp.round } } }) hd 0x0903 stOk []
    else
      let s1 := answer s hd 0x0903 stBadValue []
      match oddHat s with
      | some l => fence s1 l 2 0 (vitalCycle s1) 0xFFFF
      | none => s1

/-- HAT_CONFIRM (R372). -/
def execHatConfirm (hd : Hdr) (hat : BitVec 64) (s : State) : Host.Outcome State Fault Refusal :=
  .next (whenOn s (hatConfirmCmd hd hat))

/-- A lane at a GROUP_RESTART: steps 2 and 3 of R520; its time base, counters and counts since power good go on,
and a closed journal stays closed (R544). -/
def restartLane (L : Lane) : Lane :=
  let B := bootLane { L with flashNv := none } L.supplyOk
  { B with journal := L.journal, flashNv := L.flashNv, nv := { B.nv with closed := !L.journal && L.nv.closed },
           mismatch := if L.nv.retire ≠ 0 then B.mismatch else L.mismatch, reverts := L.reverts,
           supplyFences := L.supplyFences, fenceCause := L.fenceCause, tb := L.tb, ctrs := L.ctrs, temp := L.temp,
           vcore := L.vcore, pace := L.pace, paceLow := L.paceLow, paceGood := L.paceGood, tlmStep := L.tlmStep,
           tlmCalm := L.tlmCalm, stn := L.stn,
           ctxs := L.ctxs.map fun e => (e.1, { freshCtx with lateCount := e.2.lateCount }), verdict := if L.nv.retire ≠ 0 then B.verdict else L.verdict, valuz := L.valuz }

/-- A hub at a GROUP_RESTART: it keeps running; no handle and no command in flight survives, and SERVING_PEER and PEER_REPORTED
fall (R405, R415, R425, R526). -/
def restartHub (H : Hub) : Hub :=
  let H1 := { H with evch := [], peerEvch := [], streams := [], maps := [], pendRd := [], outbox := [], tele := [],
                     grantTele := [], serving := false, reported := false, adoptAt := none }
  if H.serving || H.reported then raiseVec H1 2 else H1

/-- The group at a GROUP_RESTART: FORMING; round count, group time, tag windows and the counts since power good stay
(R526). -/
def restartGroup (lanes : Quad Lane) (hub : HubId) (tag : Word) (g : Group) : Group :=
  let ended (h : HubId) (rs : List TagRec) : List TagRec :=
    rs.map fun r => if h = hub && r.tag = tag then r else { r with done := true }
  { round := g.round, roundFixed := g.roundFixed, roundSrc := g.roundSrc, groupTime := g.groupTime,
    firstBoundary := g.firstBoundary, rotFrom := g.rotFrom, rotRetry := g.rotRetry, fences := g.fences,
    joinFails := g.joinFails, lastGap := g.lastGap, tags0 := ended .h0 g.tags0, tags1 := ended .h1 g.tags1, order := g.order,
    straitSpare := g.straitSpare, straitFail := g.straitFail, cfg := g.cfg,
    startCount := (allLanes.map fun l => (quadGet lanes l).nv.startCount).foldl max 0 }

/-- GROUP_RESTART in SAFE (R526): FORMING, with the GROUP event of the change (R102). Rings that waited for the replies of commands
in flight end now: none is written (R394, R415). -/
def groupRestart (hub : HubId) (tag : Word) (s : State) : State :=
  let lanes : Quad Lane :=
    ⟨restartLane s.lanes.l0, restartLane s.lanes.l1, restartLane s.lanes.l2, restartLane s.lanes.l3⟩
  let t : State := { s with
    lanes := lanes
    hubs := ⟨restartHub s.hubs.a, restartHub s.hubs.b⟩
    grp := restartGroup lanes hub tag s.grp
    mod := { s.mod with op := .startUp, stopCause := 3, startMs := 0, sessNote := 0, activating := false,
                        restartCmd := some (hub, tag) } }
  grpEvent (bothHubs.foldl ringsEnd t) 6

/-- GROUP_RESTART (R413, R526). -/
def groupRestartCmd (hd : Hdr) : State → State :=
  hostCmd (.groupRestart hd) { opcode := 0x0904, maxRep := 0, allowed := inSafe } hd (plenIs hd 0) anySeal fun s =>
    groupRestart hd.hub hd.tag (accept s hd 0x0904)

/-- GROUP_RESTART (R526). -/
def execGroupRestart (hd : Hdr) (s : State) : Host.Outcome State Fault Refusal := .next (whenOn s (groupRestartCmd hd))

/-- TILE_RESET: stamped for a round boundary (R342). -/
def tileResetCmd (hd : Hdr) (t : Nat) : State → State :=
  hostCmd (.tileReset hd t) { opcode := 0x0905, maxRep := 8, allowed := inRun } hd (plenIs hd 1) anySeal fun s =>
    match tileOf? t with
    | none => answer s hd 0x0905 stBadValue []
    | some x => stampReply s hd 0x0905 (firstRound s hd.us) (.tileReset x)

/-- TILE_RESET (R342). -/
def execTileReset (hd : Hdr) (tile : Nat) (s : State) : Host.Outcome State Fault Refusal :=
  .next (whenOn s (tileResetCmd hd tile))

/-- DRIVE_RESET of a configured drive (R363). -/
def driveResetCmd (hd : Hdr) (d : Nat) : State → State :=
  hostCmd (.driveReset hd d) { opcode := 0x0906, maxRep := 8, allowed := inRun } hd (plenIs hd 1) anySeal fun s =>
    if s.grp.cfg.drives.any fun x => x.drv == d then stampReply s hd 0x0906 (firstRound s hd.us) (.driveReset d)
    else answer s hd 0x0906 stBadValue []

/-- DRIVE_RESET (R363). -/
def execDriveReset (hd : Hdr) (drv : Nat) (s : State) : Host.Outcome State Fault Refusal :=
  .next (whenOn s (driveResetCmd hd drv))

/-! ## Settings (0x0Axx, R412) -/

/-- The id names a setting. -/
def settingKnown (sid : Nat) : Bool := (1 ≤ sid && sid ≤ 4) || (0x100 ≤ sid && sid ≤ 0x11F)

/-- A value lies in the setting's range. -/
def settingInRange (sid : Nat) (v : Word) : Bool :=
  if sid = 1 then 10 ≤ v.toNat && v.toNat ≤ 3600
  else if sid = 2 then 1 ≤ v.toNat && v.toNat ≤ 90
  else if sid = 3 then v.toNat ≤ 1
  else if sid = 4 then v.toNat ≤ 10000
  else -200 ≤ v.toInt && v.toInt ≤ 200

/-- The running value of a setting: EVENT_MODERATION_US is the hub's own. -/
def runningValue (s : State) (h : HubId) (sid : Nat) : Word :=
  if sid = 4 then BitVec.ofNat 32 (hub s h).moderation else runningOf s.grp.settings sid

/-- SETTING_GET (R408). -/
def settingGetCmd (hd : Hdr) (sid : Nat) : State → State :=
  hostCmd (.settingGet hd sid) { opcode := 0x0A01, maxRep := 16, allowed := inAll } hd (plenIs hd 4) anySeal fun s =>
    if !settingKnown sid then answer s hd 0x0A01 stBadValue []
    else
      let saved := (savedLane s).bind fun l => savedValue s l sid
      answer s hd 0x0A01 stOk (leBytes 4 (runningValue s hd.hub sid).toNat ++ leBytes 4 (saved.getD 0).toNat ++
        leBytes 4 (factoryValue sid).toNat ++ leBytes 4 saved.isSome.toNat)

/-- SETTING_GET (R408). -/
def execSettingGet (hd : Hdr) (sid : Nat) (s : State) : Host.Outcome State Fault Refusal :=
  .next (whenOn s (settingGetCmd hd sid))

/-- SETTING_SET: the running value alone (R412). -/
def settingSetCmd (hd : Hdr) (sid : Nat) (v : Word) : State → State :=
  hostCmd (.settingSet hd sid v) { opcode := 0x0A02, maxRep := 8, allowed := notStart } hd (plenIs hd 8) anySeal fun s =>
    if !settingKnown sid || !settingInRange sid v then answer s hd 0x0A02 stBadValue []
    else if sid = 4 then answer (modHub s hd.hub fun H => { H with moderation := v.toNat }) hd 0x0A02 stOk []
    else stampReply s hd 0x0A02 (firstRound s hd.us) (.setting sid v)

/-- SETTING_SET (R412). -/
def execSettingSet (hd : Hdr) (sid : Nat) (val : BitVec 32) (s : State) : Host.Outcome State Fault Refusal :=
  .next (whenOn s (settingSetCmd hd sid val))

/-- Every lane that is not retired starts a flash write for a command (R412, R575). -/
def startWrites (s : State) (what : FlashWrite) (hd : Hdr) (vals : Tbl Word) : State :=
  modLanes s (allLanes.filter fun l => (lane s l).nv.retire == 0) fun _ L =>
    { L with writes := L.writes ++ [{ what := what, hub := hd.hub, tag := hd.tag, vals := vals }] }

/-- Every running value. -/
def runningAll (s : State) (h : HubId) : Tbl Word :=
  ([1, 2, 3, 4] ++ (List.range 32).map (0x100 + ·)).map fun sid => (sid, runningValue s h sid)

/-- SETTINGS_SAVE (R412). -/
def settingsSaveCmd (hd : Hdr) : State → State :=
  hostCmd (.settingsSave hd) { opcode := 0x0A03, maxRep := 0, allowed := notStart } hd (plenIs hd 0) anySeal fun s =>
    startWrites (accept s hd 0x0A03) .settings hd (runningAll s hd.hub)

/-- SETTINGS_SAVE (R412). -/
def execSettingsSave (hd : Hdr) (s : State) : Host.Outcome State Fault Refusal := .next (whenOn s (settingsSaveCmd hd))

/-- SETTINGS_FACTORY: the saved values erased; with mode 1 the running values take their factory values too, the
moderation of both hubs at once (R412). -/
def settingsFactoryCmd (hd : Hdr) (mode : Nat) : State → State :=
  hostCmd (.settingsFactory hd mode) { opcode := 0x0A04, maxRep := 0, allowed := notStart } hd (plenIs hd 1) anySeal fun s =>
    if 1 < mode then answer s hd 0x0A04 stBadValue []
    else
      let s1 := startWrites (accept s hd 0x0A04) .settingsErase hd []
      if mode = 0 then s1
      else stampAct (bothHubs.foldl (fun s h => modHub s h fun H => { H with moderation := 0 }) s1) hd
        (firstRound s1 hd.us) .factory

/-- SETTINGS_FACTORY (R412). -/
def execSettingsFactory (hd : Hdr) (mode : Nat) (s : State) : Host.Outcome State Fault Refusal :=
  .next (whenOn s (settingsFactoryCmd hd mode))

end Sys2Proof.Machine
end

