-- ==== Sys2Proof/Machine/Counters.lean ====
section
/-! DEFINITION. Counter sets and overflows (R447-R464, R503). -/

namespace Sys2Proof.Machine

open Sys2Proof

/-! ## Counter sets (R459-R461) -/

/-- The set of a handle: its source and mask, and whether its source is a lost hub, adopted (R464). -/
def setOf (s : State) (hd : Hdr) : Option (Nat × BitVec 16 × Bool) :=
  match openHandle s hd.hub hd.handle with
  | none => none
  | some x => match x.obj with
    | .counters so m => some (so, m, 4 ≤ so && so != 4 + hubNum hd.hub)
    | _ => none

/-- The reset of bits the EVSEL word of a counter does not have (R451, R454): CHAIN of an odd counter among them. -/
def selWord (isLane : Bool) (n : Nat) (w : Word) : Word :=
  let odd := n % 2 == 1
  if isLane then (if odd then w &&& 0x017FFFFF else w &&& 0x01FFFFFF)
  else if odd then w &&& 0x0005FFFF else w &&& 0x0007FFFF

/-- A range of a lane set (R452, R460). -/
def setRange (b : Bool) (lo hi : Word) (C : LaneCtrs) : LaneCtrs :=
  if b then { C with bStart := lo, bEnd := hi } else { C with aStart := lo, aEnd := hi }

/-- COUNTER_CONFIG (R460): an item outside the set is refused; VALUE is not changed. -/
def counterConfigCmd (hd : Hdr) (item : Nat) (w0 : Word) (w1 : DWord) : State → State :=
  hostCmd (.counterConfig hd item w0 w1) { opcode := 0x0601, maxRep := 0, ty := some 7, allowed := notStart } hd (plenIs hd 16) anySeal fun s =>
    match setOf s hd with
    | none => answer s hd 0x0601 stBadHandle []
    | some (so, mask, gone) =>
      if gone then answer s hd 0x0601 stNotPermitted []
      else if item < 16 && mask.getLsbD item then
        let one := BitVec.ofNat 16 (2 ^ item)
        answer (modSet s so one fun isLane c => { c with sel := selWord isLane item w0, reload := w1.setWidth 48 })
          hd 0x0601 stOk []
      else match laneOf? so with
        | some l =>
          if (item = 0x20 || item = 0x21) && mask.getLsbD 0 then
            answer (modLane s l fun L => { L with ctrs := setRange (item == 0x21) w0 (w1.setWidth 32) L.ctrs })
              hd 0x0601 stOk []
          else answer s hd 0x0601 stBadValue []
        | none => answer s hd 0x0601 stBadValue []

/-- COUNTER_CONFIG (R460). -/
def execCounterConfig (hd : Hdr) (item : Nat) (w0 : BitVec 32) (w1 : BitVec 64) (s : State) :
    Host.Outcome State Fault Refusal := .next (whenOn s (counterConfigCmd hd item w0 w1))

/-- The counters of a source as read. -/
def ctrsOf (s : State) (so : Nat) : List PerfCtr :=
  match laneOf? so with
  | some l => (lane s l).ctrs.ctr.toList.zipIdx.map fun x => { x.1 with value := laneCtrValue s.free (lane s l) x.2 }
  | none =>
    let H := hub s (if so = 4 then .h0 else .h1)
    H.ctrs.toList.zipIdx.map fun x => { x.1 with value := hubCtrValue s.free H x.2 }

/-- One counter of a COUNTER_READ: number, OVF, value (R461). -/
def ctrBytes (n : Nat) (c : PerfCtr) : List Byte := leBytes 1 n ++ leBytes 1 c.ovf.toNat ++ leBytes 6 c.value.toNat

/-- The counters of a mask, in ascending order. -/
def maskBytes (cs : List PerfCtr) (mask : BitVec 16) : List Byte :=
  cs.zipIdx.flatMap fun x => if mask.getLsbD x.2 then ctrBytes x.2 x.1 else []

/-- COUNTER_READ between two time stamps (R461). -/
def counterReadCmd (hd : Hdr) (before after : Nat) : State → State :=
  hostCmd (.counterRead hd before after) { opcode := 0x0602, maxRep := 144, ty := some 7, allowed := notStart } hd (plenIs hd 0) anySeal fun s =>
    match setOf s hd with
    | none => answer s hd 0x0602 stBadHandle []
    | some (so, mask, gone) =>
      if gone then answer s hd 0x0602 stNotPermitted []
      else answer s hd 0x0602 stOk (leBytes 8 before ++ leBytes 8 after ++ maskBytes (ctrsOf s so) mask)

/-- COUNTER_READ (R461). -/
def execCounterRead (hd : Hdr) (before : Nat) (after : Nat) (s : State) : Host.Outcome State Fault Refusal :=
  .next (whenOn s (counterReadCmd hd before after))

/-- COUNTER_CLEAR (R461). -/
def counterClearCmd (hd : Hdr) (before after : Nat) : State → State :=
  hostCmd (.counterClear hd before after) { opcode := 0x0603, maxRep := 16, ty := some 7, allowed := notStart } hd (plenIs hd 0) anySeal fun s =>
    match setOf s hd with
    | none => answer s hd 0x0603 stBadHandle []
    | some (so, mask, gone) =>
      if gone then answer s hd 0x0603 stNotPermitted []
      else answer (modSet s so mask fun _ c => { c with value := 0, ovf := false }) hd 0x0603 stOk
        (leBytes 8 before ++ leBytes 8 after)

/-- COUNTER_CLEAR (R461). -/
def execCounterClear (hd : Hdr) (before : Nat) (after : Nat) (s : State) : Host.Outcome State Fault Refusal :=
  .next (whenOn s (counterClearCmd hd before after))

/-! ## Overflow (R455-R457, R503) -/

/-- The COUNTER_SAMPLE body (R503); a hub's has no IB. -/
def sampleBody (n : Nat) (op : SampleOp) (isLane : Bool) (dropped : Nat) : List Byte :=
  leBytes 1 n ++ leBytes 1 op.master ++ leBytes 1 op.priv ++ leBytes 1 op.ctx ++ leBytes 4 op.pc.toNat ++
    leBytes 4 (if isLane then op.ib.toNat else 0) ++ leBytes 2 (min 65535 dropped) ++ List.replicate 34 0

/-- A lane writes a sample it owes; above 1,000 in a second it is dropped and counted (R456). -/
def laneSample (s : State) (l : LaneId) (o : Nat × Option Nat) (op : SampleOp) : State :=
  let C := (lane s l).ctrs
  let C1 := { C with owed := C.owed.erase o }
  if 1000 ≤ C.samples then modLane s l fun L => { L with ctrs := { C1 with dropped := C1.dropped + 1 } }
  else
    tlm (modLane s l fun L => { L with ctrs := { C1 with samples := C1.samples + 1, dropped := 0 } })
      (laneNum l) 2 (sampleBody o.1 op true C.dropped) true

/-- A hub writes a sample it owes. -/
def hubSample (s : State) (h : HubId) (n : Nat) (op : SampleOp) : State :=
  tlm (modHub s h fun H => { H with ctrOwed := H.ctrOwed.erase n }) (4 + hubNum h) 2 (sampleBody n op false 0) true

/-- The counter stands before its wrap. -/
def brimful (c : PerfCtr) : PerfCtr := { c with value := BitVec.allOnes 48 }

/-- A wrap that the event brings: OVF, the reload, the carry into the next counter (R455). -/
def laneWrap (n master : Nat) (L : Lane) : Lane :=
  match L.ctrs.ctr.toList[n]? with
  | none => L
  | some c =>
    if L.st != .retired && c.sel.getLsbD 22 && !chainedTo L.ctrs.ctr.toList laneBits n &&
        (laneUnseen L n || c.value == BitVec.allOnes 48) then
      laneCtrStep { L with ctrs := { L.ctrs with ctr := L.ctrs.ctr.setIfInBounds n (brimful c) } } n 1 (some master)
    else L

/-- The same in a hub. -/
def hubWrap (n : Nat) (H : Hub) : Hub :=
  match H.ctrs.toList[n]? with
  | none => H
  | some c =>
    if c.sel.getLsbD 16 && !chainedTo H.ctrs.toList hubBits n && (hubUnseen H n || c.value == BitVec.allOnes 48) then
      hubCtrStep { H with ctrs := H.ctrs.setIfInBounds n (brimful c) } n 1
    else H

/-- An operation of M or K that a lane can record: at most 6 operations after the event in paired mode, 9 in split mode (R457). -/
def skidOk (L : Lane) (op : SampleOp) : Bool := 2 ≤ op.master || op.skid ≤ if inSplit L then 9 else 6

/-- The sample that a lane owes for counter n, of an event of this master (R457). -/
def owedOf (L : Lane) (n master : Nat) : Option (Nat × Option Nat) :=
  L.ctrs.owed.find? fun o => o.1 == n && o.2.all fun m => m == master

/-- COUNTER_OVERFLOW: the wrap, where the counting of the model has not made it already, and the sample it owes, of the event's own
master and within the skid; a lane records no other (R456, R457). -/
def counterOverflow (src : CtrSource) (n : Nat) (op : SampleOp) (s : State) : State :=
  match src with
  | .lane l =>
    if !skidOk (lane s l) op then s
    else
      let s1 := if (lane s l).ctrs.owed.any fun o => o.1 == n then s else modLane s l (laneWrap n op.master)
      match owedOf (lane s1 l) n op.master with
      | some o => laneSample s1 l o op
      | none => s1
  | .hub h =>
    let s1 := if (hub s h).ctrOwed.contains n then s else modHub s h (hubWrap n)
    if (hub s1 h).ctrOwed.contains n then hubSample s1 h n op else s1

/-- COUNTER_OVERFLOW (R455). -/
def execCounterOverflow (src : CtrSource) (n : Nat) (op : SampleOp) (s : State) : Host.Outcome State Fault Refusal :=
  .next (whenOn s (counterOverflow src n op))

end Sys2Proof.Machine
end

