-- ==== Sys2Proof/Machine/Debug.lean ====
section
/-! DEFINITION. The test access port and the debugger (R52-R56, R546). -/

namespace Sys2Proof.Machine

open Sys2Proof

/-- IDCODE of revision B1 (R546). -/
def idcodeWord : Word := 0x12403B0F

/-- IDCODE: the port shifts out the identity in every operating state (R52, R546). -/
def execIdcode (s : State) : Host.Outcome State Fault Refusal :=
  .next (whenOn s fun s => { s with mod := { s.mod with tap := .idcode, tdo := idcodeWord } })

/-- BYPASS: the one-bit bypass register, 0 at its capture (R52). -/
def execBypass (s : State) : Host.Outcome State Fault Refusal :=
  .next (whenOn s fun s => { s with mod := { s.mod with tap := .bypass, tdo := 0 } })

/-- The port reaches a lane: the module is in BENCH and the lane unlocked (R52). -/
def dbgReach (s : State) (l : LaneId) : Bool := s.mod.op == .bench && (lane s l).unlocked

/-- A debugger action on a lane the port reaches (R52, R54). -/
def dbgAct (l : LaneId) (f : State → State) (s : State) : State :=
  if dbgReach s l then
    let s1 := f s
    { s1 with mod := { s1.mod with tap := .debug } }
  else s

/-- A debugger's action as an entry of the delay queue, at the operation boundary where it took effect (R54). -/
def dbgEntry (L : Lane) (act : DqAct) (items : List (Nat × DWord) := []) : Lane :=
  enqueue L { ops := 0, act := act, items := items, evs := [] }

/-- M halts, and the queue drains, so that K halts at the same operation (R54); a halted lane is in PAUSE (R497). -/
def haltLane (L : Lane) : Lane :=
  let L1 := dbgEntry { L with power := .pause, dbg := { L.dbg with halted := true, stepArm := false } } .halt
  kRun L1 0 L1.dq

/-- The debugger halts a lane: an open window ends and compares before the halt takes effect (R40, R49); a lane that
fences at it begins its self-test and does not halt (log 106). -/
def halt (l : LaneId) (s : State) : State :=
  if (lane s l).dbg.halted then s
  else
    let s1 := endWindow l s
    if (lane s1 l).fenced && !(lane s l).fenced then s1 else modLane s1 l haltLane

/-- DEBUG_HALT (R53, R54, R55). -/
def execDebugHalt (l : LaneId) (s : State) : Host.Outcome State Fault Refusal :=
  .next (whenOn s (dbgAct l (halt l)))

/-- DEBUG_STEP: a halted M commits one operation (R53). -/
def execDebugStep (l : LaneId) (s : State) : Host.Outcome State Fault Refusal :=
  .next (whenOn s (dbgAct l fun s => modLane s l fun L =>
    if L.dbg.halted then dbgEntry { L with dbg := { L.dbg with stepArm := true } } .step else L))

/-- A halted lane resumes, and what waited for it goes on (R54, R55). -/
def resumeLane (l : LaneId) (s : State) : State :=
  let L := lane s l
  if L.dbg.halted then
    settle (setLane s l (dbgEntry { L with power := .active, dbg := { L.dbg with halted := false, stepArm := false } } .resume)) 3
  else s

/-- DEBUG_RESUME (R53, R54). -/
def execDebugResume (l : LaneId) (s : State) : Host.Outcome State Fault Refusal :=
  .next (whenOn s (dbgAct l (resumeLane l)))

/-- DEBUG_REGISTER_WRITE (R53, R54). -/
def execDebugRegisterWrite (l : LaneId) (reg : DebugReg) (v : BitVec 32) (s : State) :
    Host.Outcome State Fault Refusal :=
  .next (whenOn s (dbgAct l fun s => modLane s l fun L =>
    dbgEntry { L with cur := L.cur.map (setReg reg v) } (.reg reg v)))

/-- A word written to a register of the lane's engine (R380); KEY of channels 0-2 is the sealed configuration's (R382). Of ABORT and
GO in one write ABORT acts first (DESIGN CHOICE, log 145). -/
def dbgValuz (L : Lane) (off : Nat) (v : Word) : Lane :=
  let ch := off / 0x40
  let r := off % 0x40 / 4 * 4
  if r = 0x20 then
    let L1 := if v.getLsbD 1 then modLaneValuz L ch valuzStop else L
    if v.getLsbD 0 then laneGo L1 ch else L1
  else modLaneValuz L ch fun c => valuzWrite c r v true false

/-- A word written to a counter register as the executive writes it (R451); VALUE is read only. -/
def dbgCtr (n r : Nat) (v : Word) (c : PerfCtr) : PerfCtr :=
  match r with
  | 0x08 => { c with sel := if n % 2 = 1 then v &&& 0x017FFFFF else v &&& 0x01FFFFFF }
  | 0x10 => { c with reload := (c.reload.extractLsb' 32 16 ++ v : BitVec 48) }
  | 0x14 => { c with reload := (v.extractLsb' 0 16 ++ c.reload.extractLsb' 0 32 : BitVec 48) }
  | 0x18 => { c with ovf := c.ovf && !v.getLsbD 0 }
  | _ => c

/-- A word written to the counter block (R451, R452). -/
def dbgCtrs (off : Nat) (v : Word) (C : LaneCtrs) : LaneCtrs :=
  if off < 0x200 then
    let n := off / 0x20
    { C with ctr := C.ctr.setIfInBounds n (dbgCtr n (off % 0x20 / 4 * 4) v (C.ctr.toList[n]?.getD {})) }
  else match off / 4 * 4 with
    | 0x200 => { C with aStart := v }
    | 0x204 => { C with aEnd := v }
    | 0x208 => { C with bStart := v }
    | 0x20C => { C with bEnd := v }
    | _ => C

/-- A debugger's word write in a lane: signed by both cores as a store (R54); to the SRAM it waits in the outbound buffer
like one. -/
def dbgStore (a : Nat) (v : Word) (L : Lane) : Lane :=
  let L1 := dbgEntry L (.memory a v) [storeItem a v]
  if a + 4 ≤ 0x800000 then
    let st := storeBytes a 4 v.toNat
    { L1 with outBuf := st.reverse ++ L1.outBuf, scrub := markStores L1.scrub st }
  else if 0x40003000 ≤ a && a < 0x40003100 then dbgValuz L1 (a - 0x40003000) v
  else if 0x40005000 ≤ a && a < 0x40005210 then { L1 with ctrs := dbgCtrs (a - 0x40005000) v L1.ctrs }
  else L1

/-- A debugger's write in a copy source stages the blocks it touches first (R85). -/
def dbgMemWrite (l : LaneId) (a : Nat) (v : Word) (s : State) : State :=
  let bs := s.grp.join.elim [] fun j => toStage j l (storeBytes a 4 v.toNat)
  modLane (modGrp s fun g => { g with join := g.join.map fun j => { j with staged := j.staged ++ bs } }) l (dbgStore a v)

/-- DEBUG_MEMORY_WRITE (R53, R54). -/
def execDebugMemoryWrite (l : LaneId) (addr : BitVec 32) (v : BitVec 32) (s : State) :
    Host.Outcome State Fault Refusal := .next (whenOn s (dbgAct l (dbgMemWrite l addr.toNat v)))

/-- A breakpoint set while fewer than 4 are (R53). -/
def addBreak (a : Word) (L : Lane) : Lane :=
  if L.dbg.bps.length < 4 && !L.dbg.bps.contains a then { L with dbg := { L.dbg with bps := L.dbg.bps ++ [a] } } else L

/-- DEBUG_BREAKPOINT_SET (R53). -/
def execDebugBreakpointSet (l : LaneId) (addr : BitVec 32) (s : State) : Host.Outcome State Fault Refusal :=
  .next (whenOn s (dbgAct l fun s => modLane s l (addBreak addr)))

/-- BREAKPOINT_HIT: M has reached a breakpoint's address and halts (R53). -/
def execBreakpointHit (l : LaneId) (s : State) : Host.Outcome State Fault Refusal :=
  .next (whenOn s fun s =>
    if dbgReach s l && (lane s l).cur.any fun t => (lane s l).dbg.bps.contains t.pc then halt l s else s)

end Sys2Proof.Machine
end

