-- ==== Sys2Proof/Machine/FbAlu.lean ====
section
/-! DEFINITION. Arithmetic, logic and immediates of function-block code (R147-R152). -/

namespace Sys2Proof.Machine

open Sys2Proof

/-! ## The operations -/

/-- rs1 + rs2, saturating (R147). -/
def addSat (a b : Word) : Word := sat32 (a.toInt + b.toInt)
/-- rs1 − rs2, saturating. -/
def subSat (a b : Word) : Word := sat32 (a.toInt - b.toInt)
/-- rs1 × rs2, saturating. -/
def mulSat (a b : Word) : Word := sat32 (a.toInt * b.toInt)
/-- DIV (R148): toward zero, saturating; by 0 the limit on the dividend's side. -/
def divSat (a b : Word) : Word :=
  if b = 0 then (if a.toInt < 0 then 0x80000000 else 0x7FFFFFFF) else sat32 (a.toInt.tdiv b.toInt)
/-- MOD (R148): the remainder with the sign of the dividend; by 0 it is 0. -/
def modRem (a b : Word) : Word := if b = 0 then 0 else BitVec.ofInt 32 (a.toInt.tmod b.toInt)
/-- The smaller, signed. -/
def minS (a b : Word) : Word := if a.toInt ≤ b.toInt then a else b
/-- The larger, signed. -/
def maxS (a b : Word) : Word := if a.toInt ≤ b.toInt then b else a
/-- The absolute value, saturating. -/
def absSat (a : Word) : Word := sat32 a.toInt.natAbs
/-- The shift amount: bits [4:0] (R150). -/
def shAmt (b : Word) : Nat := b.toNat % 32

/-- An instruction of two source registers (R150). -/
def fbAlu (s : State) (l : LaneId) (i : Instr) (rd a b : Reg) (w : Nat) (f : Word → Word → Word) : State :=
  fbRun s l i fun _ t => fbSet t rd (f (getX t a) (getX t b)) w

/-- An instruction of a source register and an immediate value (R151). -/
def fbAlui (s : State) (l : LaneId) (i : Instr) (rd a : Reg) (v : Word) (f : Word → Word → Word) : State :=
  fbRun s l i fun _ t => fbSet t rd (f (getX t a) v) 1

/-- A shift by an immediate: [11:5] must be 0, else the word is illegal (R145, R146). -/
def fbShi (s : State) (l : LaneId) (i : Instr) (rd a : Reg) (imm : BitVec 12) (f : Word → Nat → Word) : State :=
  fbRun s l i fun _ t => if imm.toNat < 32 then fbSet t rd (f (getX t a) imm.toNat) 1 else .fault 1

/-! ## The ALU group (R150) -/

/-- ADD: rd ← rs1 + rs2, saturating (R150). -/
def execAdd (l : LaneId) (rd rs1 rs2 : Reg) (s : State) : Host.Outcome State Fault Refusal :=
  .next (fbAlu s l (.add l rd rs1 rs2) rd rs1 rs2 1 addSat)

/-- SUB: rd ← rs1 − rs2, saturating (R150). -/
def execSub (l : LaneId) (rd rs1 rs2 : Reg) (s : State) : Host.Outcome State Fault Refusal :=
  .next (fbAlu s l (.sub l rd rs1 rs2) rd rs1 rs2 1 subSat)

/-- MUL: rd ← rs1 × rs2, saturating (R150). -/
def execMul (l : LaneId) (rd rs1 rs2 : Reg) (s : State) : Host.Outcome State Fault Refusal :=
  .next (fbAlu s l (.mul l rd rs1 rs2) rd rs1 rs2 2 mulSat)

/-- DIV: rd ← rs1 ÷ rs2 (R148). -/
def execDiv (l : LaneId) (rd rs1 rs2 : Reg) (s : State) : Host.Outcome State Fault Refusal :=
  .next (fbAlu s l (.div l rd rs1 rs2) rd rs1 rs2 8 divSat)

/-- MOD: rd ← rs1 mod rs2 (R148). -/
def execMod (l : LaneId) (rd rs1 rs2 : Reg) (s : State) : Host.Outcome State Fault Refusal :=
  .next (fbAlu s l (.mod l rd rs1 rs2) rd rs1 rs2 8 modRem)

/-- MIN: the smaller, signed (R150). -/
def execMin (l : LaneId) (rd rs1 rs2 : Reg) (s : State) : Host.Outcome State Fault Refusal :=
  .next (fbAlu s l (.min l rd rs1 rs2) rd rs1 rs2 1 minS)

/-- MAX: the larger, signed (R150). -/
def execMax (l : LaneId) (rd rs1 rs2 : Reg) (s : State) : Host.Outcome State Fault Refusal :=
  .next (fbAlu s l (.max l rd rs1 rs2) rd rs1 rs2 1 maxS)

/-- ABS: the absolute value, saturating (R150). -/
def execAbs (l : LaneId) (rd rs1 : Reg) (s : State) : Host.Outcome State Fault Refusal :=
  .next (fbRun s l (.abs l rd rs1) fun _ t => fbSet t rd (absSat (getX t rs1)) 1)

/-- AND: AND (R150). -/
def execAnd (l : LaneId) (rd rs1 rs2 : Reg) (s : State) : Host.Outcome State Fault Refusal :=
  .next (fbAlu s l (.and l rd rs1 rs2) rd rs1 rs2 1 (· &&& ·))

/-- OR: OR (R150). -/
def execOr (l : LaneId) (rd rs1 rs2 : Reg) (s : State) : Host.Outcome State Fault Refusal :=
  .next (fbAlu s l (.or l rd rs1 rs2) rd rs1 rs2 1 (· ||| ·))

/-- XOR: XOR (R150). -/
def execXor (l : LaneId) (rd rs1 rs2 : Reg) (s : State) : Host.Outcome State Fault Refusal :=
  .next (fbAlu s l (.xor l rd rs1 rs2) rd rs1 rs2 1 (· ^^^ ·))

/-- ANDN: rs1 AND NOT rs2 (R150). -/
def execAndn (l : LaneId) (rd rs1 rs2 : Reg) (s : State) : Host.Outcome State Fault Refusal :=
  .next (fbAlu s l (.andn l rd rs1 rs2) rd rs1 rs2 1 (fun a b => a &&& ~~~b))

/-- SHL: shift left (R150). -/
def execShl (l : LaneId) (rd rs1 rs2 : Reg) (s : State) : Host.Outcome State Fault Refusal :=
  .next (fbAlu s l (.shl l rd rs1 rs2) rd rs1 rs2 1 (fun a b => a <<< shAmt b))

/-- SHR: shift right, zeros in (R150). -/
def execShr (l : LaneId) (rd rs1 rs2 : Reg) (s : State) : Host.Outcome State Fault Refusal :=
  .next (fbAlu s l (.shr l rd rs1 rs2) rd rs1 rs2 1 (fun a b => a >>> shAmt b))

/-- SAR: shift right, sign in (R150). -/
def execSar (l : LaneId) (rd rs1 rs2 : Reg) (s : State) : Host.Outcome State Fault Refusal :=
  .next (fbAlu s l (.sar l rd rs1 rs2) rd rs1 rs2 1 (fun a b => a.sshiftRight (shAmt b)))

/-- SEQ: 1 if equal (R150). -/
def execSeq (l : LaneId) (rd rs1 rs2 : Reg) (s : State) : Host.Outcome State Fault Refusal :=
  .next (fbAlu s l (.seq l rd rs1 rs2) rd rs1 rs2 1 (fun a b => boolWord (a == b)))

/-- SNE: 1 if different (R150). -/
def execSne (l : LaneId) (rd rs1 rs2 : Reg) (s : State) : Host.Outcome State Fault Refusal :=
  .next (fbAlu s l (.sne l rd rs1 rs2) rd rs1 rs2 1 (fun a b => boolWord (a != b)))

/-- SLT: 1 if less, signed (R150). -/
def execSlt (l : LaneId) (rd rs1 rs2 : Reg) (s : State) : Host.Outcome State Fault Refusal :=
  .next (fbAlu s l (.slt l rd rs1 rs2) rd rs1 rs2 1 (fun a b => boolWord (a.toInt < b.toInt)))

/-- SLTU: 1 if less, unsigned (R150). -/
def execSltu (l : LaneId) (rd rs1 rs2 : Reg) (s : State) : Host.Outcome State Fault Refusal :=
  .next (fbAlu s l (.sltu l rd rs1 rs2) rd rs1 rs2 1 (fun a b => boolWord (a.toNat < b.toNat)))

/-- SGE: 1 if not less, signed (R150). -/
def execSge (l : LaneId) (rd rs1 rs2 : Reg) (s : State) : Host.Outcome State Fault Refusal :=
  .next (fbAlu s l (.sge l rd rs1 rs2) rd rs1 rs2 1 (fun a b => boolWord (b.toInt ≤ a.toInt)))

/-- SGEU: 1 if not less, unsigned (R150). -/
def execSgeu (l : LaneId) (rd rs1 rs2 : Reg) (s : State) : Host.Outcome State Fault Refusal :=
  .next (fbAlu s l (.sgeu l rd rs1 rs2) rd rs1 rs2 1 (fun a b => boolWord (b.toNat ≤ a.toNat)))

/-! ## The ALUI group (R151) -/

/-- ADDI: saturating (R151). -/
def execAddi (l : LaneId) (rd rs1 : Reg) (imm : BitVec 12) (s : State) : Host.Outcome State Fault Refusal :=
  .next (fbAlui s l (.addi l rd rs1 imm) rd rs1 (sext12 imm) addSat)

/-- ANDI: AND (R151). -/
def execAndi (l : LaneId) (rd rs1 : Reg) (imm : BitVec 12) (s : State) : Host.Outcome State Fault Refusal :=
  .next (fbAlui s l (.andi l rd rs1 imm) rd rs1 (zext12 imm) (· &&& ·))

/-- ORI: OR (R151). -/
def execOri (l : LaneId) (rd rs1 : Reg) (imm : BitVec 12) (s : State) : Host.Outcome State Fault Refusal :=
  .next (fbAlui s l (.ori l rd rs1 imm) rd rs1 (zext12 imm) (· ||| ·))

/-- XORI: XOR (R151). -/
def execXori (l : LaneId) (rd rs1 : Reg) (imm : BitVec 12) (s : State) : Host.Outcome State Fault Refusal :=
  .next (fbAlui s l (.xori l rd rs1 imm) rd rs1 (zext12 imm) (· ^^^ ·))

/-- SHLI: shift left (R151). -/
def execShli (l : LaneId) (rd rs1 : Reg) (imm : BitVec 12) (s : State) : Host.Outcome State Fault Refusal :=
  .next (fbShi s l (.shli l rd rs1 imm) rd rs1 imm (· <<< ·))

/-- SHRI: shift right, zeros in (R151). -/
def execShri (l : LaneId) (rd rs1 : Reg) (imm : BitVec 12) (s : State) : Host.Outcome State Fault Refusal :=
  .next (fbShi s l (.shri l rd rs1 imm) rd rs1 imm (· >>> ·))

/-- SARI: shift right, sign in (R151). -/
def execSari (l : LaneId) (rd rs1 : Reg) (imm : BitVec 12) (s : State) : Host.Outcome State Fault Refusal :=
  .next (fbShi s l (.sari l rd rs1 imm) rd rs1 imm (fun a k => a.sshiftRight k))

/-- SLTI: 1 if less, signed (R151). -/
def execSlti (l : LaneId) (rd rs1 : Reg) (imm : BitVec 12) (s : State) : Host.Outcome State Fault Refusal :=
  .next (fbAlui s l (.slti l rd rs1 imm) rd rs1 (sext12 imm) (fun a b => boolWord (a.toInt < b.toInt)))

/-- SLTIU: 1 if less, unsigned after sign extension (R151). -/
def execSltiu (l : LaneId) (rd rs1 : Reg) (imm : BitVec 12) (s : State) : Host.Outcome State Fault Refusal :=
  .next (fbAlui s l (.sltiu l rd rs1 imm) rd rs1 (sext12 imm) (fun a b => boolWord (a.toNat < b.toNat)))

/-- SEQI: 1 if equal (R151). -/
def execSeqi (l : LaneId) (rd rs1 : Reg) (imm : BitVec 12) (s : State) : Host.Outcome State Fault Refusal :=
  .next (fbAlui s l (.seqi l rd rs1 imm) rd rs1 (sext12 imm) (fun a b => boolWord (a == b)))

/-- MINI: the smaller, signed (R151). -/
def execMini (l : LaneId) (rd rs1 : Reg) (imm : BitVec 12) (s : State) : Host.Outcome State Fault Refusal :=
  .next (fbAlui s l (.mini l rd rs1 imm) rd rs1 (sext12 imm) minS)

/-- MAXI: the larger, signed (R151). -/
def execMaxi (l : LaneId) (rd rs1 : Reg) (imm : BitVec 12) (s : State) : Host.Outcome State Fault Refusal :=
  .next (fbAlui s l (.maxi l rd rs1 imm) rd rs1 (sext12 imm) maxS)

/-! ## The LIMM group (R152) -/

/-- LUI: rd ← imm20 shifted left by 12 (R152). -/
def execLui (l : LaneId) (rd : Reg) (imm : BitVec 20) (s : State) : Host.Outcome State Fault Refusal :=
  .next (fbRun s l (.lui l rd imm) fun _ t => fbSet t rd (imm.setWidth 32 <<< 12) 1)

/-- LI: rd ← imm20 sign-extended (R152). -/
def execLi (l : LaneId) (rd : Reg) (imm : BitVec 20) (s : State) : Host.Outcome State Fault Refusal :=
  .next (fbRun s l (.li l rd imm) fun _ t => fbSet t rd (imm.signExtend 32) 1)

end Sys2Proof.Machine
end

