-- ==== Sys2Proof/Machine/FbBuiltin.lean ====
section
/-! DEFINITION. Built-in timers, counters, edges and bistables (R169-R180). -/

namespace Sys2Proof.Machine

open Sys2Proof

/-- The elapsed time of R173: now − START, 0 when START lies above now. -/
def elapsed (now start : DWord) : Nat := now.toNat - start.toNat

/-- A timer slot (R172): its flags, PT and START. -/
structure TimerSlot where
  q     : Bool
  prev  : Bool
  run   : Bool
  done  : Bool
  pt    : Word
  start : DWord

/-- A timer slot as it stands in memory. -/
def readTimer (L : Lane) (a : Nat) : TimerSlot :=
  let w := laneWord L a
  { q := w.getLsbD 0, prev := w.getLsbD 1, run := w.getLsbD 2, done := w.getLsbD 3, pt := laneWord L (a + 4),
     start := BitVec.ofNat 64 (laneNat L (a + 8) 8) }

/-- KIND of a slot, bits [7:4] of its first word (R170). -/
def slotKind (L : Lane) (a : Nat) : Nat := laneNat L a 1 / 16

/-- TON (R173). -/
def tonStep (fresh inp : Bool) (now : DWord) (z : TimerSlot) : TimerSlot :=
  let z1 := if fresh then { z with prev := inp, start := if inp then now else z.start } else z
  let z2 := if inp && !z1.prev then { z1 with start := now } else z1
  { z2 with q := inp && z2.pt.toNat ≤ elapsed now z2.start, prev := inp }

/-- TOF (R173). -/
def tofStep (fresh inp : Bool) (now : DWord) (z : TimerSlot) : TimerSlot :=
  let z1 := if fresh then { z with prev := inp, q := inp } else z
  let z2 :=
    if inp then { z1 with q := true, run := false, done := false }
    else if z1.prev then { z1 with run := true, start := now } else z1
  let z3 :=
    if !inp && z2.run then
      if z2.pt.toNat ≤ elapsed now z2.start then { z2 with q := false, run := false, done := true }
      else { z2 with q := true }
    else z2
  { z3 with prev := inp }

/-- TP (R173). -/
def tpStep (fresh inp : Bool) (now : DWord) (z : TimerSlot) : TimerSlot :=
  let z1 := if fresh then { z with prev := inp } else z
  let z2 := if inp && !z1.prev && !z1.run then { z1 with run := true, done := false, start := now } else z1
  let z3 :=
    if z2.run then
      if z2.pt.toNat ≤ elapsed now z2.start then { z2 with q := false, run := false, done := true }
      else { z2 with q := true }
    else z2
  let z4 := if !inp && !z3.run then { z3 with done := false } else z3
  { z4 with prev := inp }

/-- The first word of a slot: flags in [3:0] and KIND in [7:4], every other bit 0 (R170). -/
def slotWord (f0 f1 f2 f3 : Bool) (kind : Nat) : Nat :=
  f0.toNat + 2 * f1.toNat + 4 * f2.toNat + 8 * f3.toNat + 16 * kind

/-- The words of a slot as M takes them in (R35). -/
def slotIns (L : Lane) (a n : Nat) : List DWord := (List.range n).map fun k => (laneWord L (a + 4 * k)).setWidth 64

/-- The effect of an evaluation: rd written, words stored and signed in order (R39, R169). -/
def fbSlot (t : Task) (rd : Reg) (v : Word) (words : List (Nat × Nat)) (ins : List DWord) : FbRes :=
  .done { task := some { setX t rd v with pc := t.pc + 4 }, weight := 3, ins := ins,
           stores := words.flatMap fun x => storeBytes x.1 4 x.2,
           items := words.map fun x => storeItem x.1 (BitVec.ofNat 32 x.2) }

/-- A timer evaluation (R169, R172, R173): only an evaluation that starts the timer changes START. -/
def fbTimer (L : Lane) (t : Task) (rd rs1 : Reg) (imm : BitVec 12) (kind : Nat)
    (f : Bool → Bool → DWord → TimerSlot → TimerSlot) : FbRes :=
  match slotCheck L t imm 16 8 true with
  | .error c => .fault c
  | .ok a =>
    let k := slotKind L a
    if k ≠ 0 && k ≠ kind then .fault 11
    else
      let z0 := readTimer L a
      let z := f (k == 0) ((getX t rs1).getLsbD 0) t.now z0
      fbSlot t rd (boolWord z.q)
        ((a, slotWord z.q z.prev z.run z.done kind) ::
          (if z.start = z0.start then [] else
            [(a + 8, z.start.toNat % 2 ^ 32), (a + 12, z.start.toNat / 2 ^ 32)])) (t.now :: slotIns L a 4)

/-- A counter slot (R177). -/
structure CtrSlot where
  q  : Bool
  qd : Bool
  cu : Bool
  cd : Bool
  pv : Word
  cv : Word

/-- A counter slot as it stands in memory. -/
def readCtr (L : Lane) (a : Nat) : CtrSlot :=
  let w := laneWord L a
  { q := w.getLsbD 0, qd := w.getLsbD 1, cu := w.getLsbD 2, cd := w.getLsbD 3, pv := laneWord L (a + 4),
     cv := laneWord L (a + 8) }

/-- CTU (R178): inputs CU and R; QD and CD_PREV, which it does not use, stay (log 32). -/
def ctuStep (fresh : Bool) (x : Word) (z : CtrSlot) : CtrSlot :=
  let cu := x.getLsbD 0
  let prev := if fresh then cu else z.cu
  let cv := if x.getLsbD 1 then 0 else if cu && !prev then sat32 (z.cv.toInt + 1) else z.cv
  { z with cv := cv, q := z.pv.toInt ≤ cv.toInt, cu := cu }

/-- CTD (R178): inputs CD and LD; QD and CU_PREV, which it does not use, stay (log 32). -/
def ctdStep (fresh : Bool) (x : Word) (z : CtrSlot) : CtrSlot :=
  let cd := x.getLsbD 0
  let prev := if fresh then cd else z.cd
  let cv := if x.getLsbD 1 then z.pv else if cd && !prev then sat32 (z.cv.toInt - 1) else z.cv
  { z with cv := cv, q := cv.toInt ≤ 0, cd := cd }

/-- CTUD (R178): inputs CU, CD, R and LD. -/
def ctudStep (fresh : Bool) (x : Word) (z : CtrSlot) : CtrSlot :=
  let cu := x.getLsbD 0
  let cd := x.getLsbD 1
  let up := cu && !(if fresh then cu else z.cu)
  let down := cd && !(if fresh then cd else z.cd)
  let cv :=
    if x.getLsbD 2 then 0 else if x.getLsbD 3 then z.pv
    else if up && !down then sat32 (z.cv.toInt + 1) else if down && !up then sat32 (z.cv.toInt - 1) else z.cv
  { z with cv := cv, q := z.pv.toInt ≤ cv.toInt, qd := cv.toInt ≤ 0, cu := cu, cd := cd }

/-- A counter evaluation (R169, R177, R178). -/
def fbCounter (L : Lane) (t : Task) (rd rs1 : Reg) (imm : BitVec 12) (kind : Nat)
    (f : Bool → Word → CtrSlot → CtrSlot) (two : Bool) : FbRes :=
  match slotCheck L t imm 12 4 true with
  | .error c => .fault c
  | .ok a =>
    let k := slotKind L a
    if k ≠ 0 && k ≠ kind then .fault 11
    else
      let z0 := readCtr L a
      let z := f (k == 0) (getX t rs1) z0
      fbSlot t rd (BitVec.ofNat 32 (z.q.toNat + (if two then 2 * z.qd.toNat else 0)))
        ((a, slotWord z.q z.qd z.cu z.cd kind) ::
          (if z.cv = z0.cv then [] else [(a + 8, z.cv.toNat)])) (slotIns L a 3)

/-- An edge or bistable evaluation (R179): `f` gives Q and the remembered input from freshness, inputs, Q and the
remembered input. -/
def fbEdge (L : Lane) (t : Task) (rd rs1 : Reg) (imm : BitVec 12) (kind : Nat)
    (f : Bool → Word → Bool → Bool → Bool × Bool) : FbRes :=
  match slotCheck L t imm 4 4 true with
  | .error c => .fault c
  | .ok a =>
    let k := slotKind L a
    if k ≠ 0 && k ≠ kind then .fault 11
    else
      let w := laneWord L a
      let (q, prev) := f (k == 0) (getX t rs1) (w.getLsbD 0) (w.getLsbD 1)
      fbSlot t rd (boolWord q) [(a, slotWord q prev false false kind)] (slotIns L a 1)

/-- ET (R174). -/
def timerEt (kind : Nat) (now : DWord) (z : TimerSlot) : Word :=
  let e := BitVec.ofNat 32 (min z.pt.toNat (elapsed now z.start))
  match kind with
  | 1 => if z.prev then e else 0
  | 2 => if z.run then e else if z.done then z.pt else 0
  | 3 => if z.run then e else if z.done then z.pt else 0
  | _ => 0


/-- TON (R173). -/
def execTon (l : LaneId) (rd rs1 : Reg) (imm : BitVec 12) (s : State) : Host.Outcome State Fault Refusal :=
  .next (fbRun s l (.ton l rd rs1 imm) fun L t => fbTimer L t rd rs1 imm 1 tonStep)

/-- TOF (R173). -/
def execTof (l : LaneId) (rd rs1 : Reg) (imm : BitVec 12) (s : State) : Host.Outcome State Fault Refusal :=
  .next (fbRun s l (.tof l rd rs1 imm) fun L t => fbTimer L t rd rs1 imm 2 tofStep)

/-- TP (R173). -/
def execTp (l : LaneId) (rd rs1 : Reg) (imm : BitVec 12) (s : State) : Host.Outcome State Fault Refusal :=
  .next (fbRun s l (.tp l rd rs1 imm) fun L t => fbTimer L t rd rs1 imm 3 tpStep)

/-- TET (R174): ET, KIND 0 to 3 accepted; nothing is written but rd. -/
def execTet (l : LaneId) (rd : Reg) (imm : BitVec 12) (s : State) : Host.Outcome State Fault Refusal :=
  .next (fbRun s l (.tet l rd imm) fun L t =>
    match slotCheck L t imm 16 8 false with
    | .error c => .fault c
    | .ok a =>
      if 3 < slotKind L a then .fault 11
      else fbSet t rd (timerEt (slotKind L a) t.now (readTimer L a)) 3 [] (t.now :: slotIns L a 4))

/-- CTU (R178). -/
def execCtu (l : LaneId) (rd rs1 : Reg) (imm : BitVec 12) (s : State) : Host.Outcome State Fault Refusal :=
  .next (fbRun s l (.ctu l rd rs1 imm) fun L t => fbCounter L t rd rs1 imm 4 ctuStep false)

/-- CTD (R178). -/
def execCtd (l : LaneId) (rd rs1 : Reg) (imm : BitVec 12) (s : State) : Host.Outcome State Fault Refusal :=
  .next (fbRun s l (.ctd l rd rs1 imm) fun L t => fbCounter L t rd rs1 imm 5 ctdStep false)

/-- CTUD (R178). -/
def execCtud (l : LaneId) (rd rs1 : Reg) (imm : BitVec 12) (s : State) : Host.Outcome State Fault Refusal :=
  .next (fbRun s l (.ctud l rd rs1 imm) fun L t => fbCounter L t rd rs1 imm 6 ctudStep true)

/-- RTRG (R179). -/
def execRtrg (l : LaneId) (rd rs1 : Reg) (imm : BitVec 12) (s : State) : Host.Outcome State Fault Refusal :=
  .next (fbRun s l (.rtrg l rd rs1 imm) fun L t => fbEdge L t rd rs1 imm 7 fun fresh x _ prev =>
    (x.getLsbD 0 && !(if fresh then x.getLsbD 0 else prev), x.getLsbD 0))

/-- FTRG (R179). -/
def execFtrg (l : LaneId) (rd rs1 : Reg) (imm : BitVec 12) (s : State) : Host.Outcome State Fault Refusal :=
  .next (fbRun s l (.ftrg l rd rs1 imm) fun L t => fbEdge L t rd rs1 imm 8 fun fresh x _ prev =>
    (!x.getLsbD 0 && (if fresh then x.getLsbD 0 else prev), x.getLsbD 0))

/-- SR (R179). -/
def execSr (l : LaneId) (rd rs1 : Reg) (imm : BitVec 12) (s : State) : Host.Outcome State Fault Refusal :=
  .next (fbRun s l (.sr l rd rs1 imm) fun L t => fbEdge L t rd rs1 imm 9 fun _ x q _ =>
    (x.getLsbD 0 || (q && !x.getLsbD 1), false))

/-- RS (R179). -/
def execRs (l : LaneId) (rd rs1 : Reg) (imm : BitVec 12) (s : State) : Host.Outcome State Fault Refusal :=
  .next (fbRun s l (.rs l rd rs1 imm) fun L t => fbEdge L t rd rs1 imm 10 fun _ x q _ =>
    (!x.getLsbD 1 && (x.getLsbD 0 || q), false))

end Sys2Proof.Machine
end

