-- ==== Sys2Proof/Machine/FbFlow.lean ====
section
/-! DEFINITION. Branches, jumps, calls and the system instructions of function-block code (R156-R158, R163-R168, R181),
and the illegal instruction (R145). -/

namespace Sys2Proof.Machine

open Sys2Proof

/-- A conditional branch (R156): the target is checked whether or not the condition holds (R158). -/
def fbBranch (s : State) (l : LaneId) (i : Instr) (a b : Reg) (imm : BitVec 12) (cond : Word → Word → Bool) : State :=
  fbRun s l i fun _ t =>
    let tgt := targetOf t.pc imm
    let take := cond (getX t a) (getX t b)
    if codeTargetOk tgt.toNat then
      .done { task := some { t with pc := if take then tgt else t.pc + 4 }, weight := 1,
               items := [branchItem take tgt],
               evs := if take then [{ cls := 3, n := 1, priv := 0, addr := some tgt }] else [] }
    else .fault 9

/-! ## The BCC group (R156) -/

/-- BEQ: branches when equal (R156). -/
def execBeq (l : LaneId) (rs1 rs2 : Reg) (imm : BitVec 12) (s : State) : Host.Outcome State Fault Refusal :=
  .next (fbBranch s l (.beq l rs1 rs2 imm) rs1 rs2 imm fun a b => a == b)

/-- BNE: branches when different (R156). -/
def execBne (l : LaneId) (rs1 rs2 : Reg) (imm : BitVec 12) (s : State) : Host.Outcome State Fault Refusal :=
  .next (fbBranch s l (.bne l rs1 rs2 imm) rs1 rs2 imm fun a b => a != b)

/-- BLT: branches when less, signed (R156). -/
def execBlt (l : LaneId) (rs1 rs2 : Reg) (imm : BitVec 12) (s : State) : Host.Outcome State Fault Refusal :=
  .next (fbBranch s l (.blt l rs1 rs2 imm) rs1 rs2 imm fun a b => a.toInt < b.toInt)

/-- BGE: branches when not less, signed (R156). -/
def execBge (l : LaneId) (rs1 rs2 : Reg) (imm : BitVec 12) (s : State) : Host.Outcome State Fault Refusal :=
  .next (fbBranch s l (.bge l rs1 rs2 imm) rs1 rs2 imm fun a b => b.toInt ≤ a.toInt)

/-- BLTU: branches when less, unsigned (R156). -/
def execBltu (l : LaneId) (rs1 rs2 : Reg) (imm : BitVec 12) (s : State) : Host.Outcome State Fault Refusal :=
  .next (fbBranch s l (.bltu l rs1 rs2 imm) rs1 rs2 imm fun a b => a.toNat < b.toNat)

/-- BGEU: branches when not less, unsigned (R156). -/
def execBgeu (l : LaneId) (rs1 rs2 : Reg) (imm : BitVec 12) (s : State) : Host.Outcome State Fault Refusal :=
  .next (fbBranch s l (.bgeu l rs1 rs2 imm) rs1 rs2 imm fun a b => b.toNat ≤ a.toNat)

/-! ## Jumps (R157) -/

/-- JMP: PC ← target (R157). -/
def execJmp (l : LaneId) (imm : BitVec 22) (s : State) : Host.Outcome State Fault Refusal :=
  .next (fbRun s l (.jmp l imm) fun _ t =>
    let tgt := targetOf t.pc imm
    if codeTargetOk tgt.toNat then
      .done { task := some { t with pc := tgt }, weight := 1, items := [branchItem true tgt],
               evs := [{ cls := 3, n := 1, priv := 0, addr := some tgt }] }
    else .fault 9)

/-- JSR: a jump that pushes the return PC and the unchanged IB (R157); a full stack is cause 8, a bad target cause 9,
the lower of both first (R183, R197). -/
def execJsr (l : LaneId) (imm : BitVec 22) (s : State) : Host.Outcome State Fault Refusal :=
  .next (fbRun s l (.jsr l imm) fun _ t =>
    let tgt := targetOf t.pc imm
    if 32 ≤ t.stack.length then .fault 8
    else if codeTargetOk tgt.toNat then
      .done { task := some { t with pc := tgt, stack := (t.pc + 4, t.ib) :: t.stack }, weight := 2,
               items := [branchItem true tgt], evs := [{ cls := 3, n := 1, priv := 0, addr := some tgt }] }
    else .fault 9)

/-! ## Instance calls (R163-R168) -/

/-- The checks of an instance call in the order of R164: header and range (cause 7), code address (cause 9), depth
(cause 8); the type's code address when all pass. -/
def callCheck (L : Lane) (t : Task) (a ty : Nat) : Except Nat Nat :=
  match instCheck L t.ctx a ty with
  | .error c => .error c
  | .ok code => if 32 ≤ t.stack.length then .error 8 else .ok code

/-- An instance call whose target is known (R164). -/
def fbCall (L : Lane) (t : Task) (a ty : Nat) : FbRes :=
  match callCheck L t a ty with
  | .error c => .fault c
  | .ok code =>
    let pc' : Word := BitVec.ofNat 32 code
    let ib' : Word := BitVec.ofNat 32 a
    .done { task := some { t with pc := pc', ib := ib', stack := (t.pc + 4, t.ib) :: t.stack },
             weight := 2, items := [branchItem true pc'],
             evs := [{ cls := 4, n := 1, priv := 0, addr := some ib' }],
             ins := [BitVec.ofNat 64 (laneNat L a 4), BitVec.ofNat 64 code] }

/-- ICALL: calls the instance at IB + 16 × offset (R164). -/
def execIcall (l : LaneId) (ty : BitVec 12) (off : BitVec 14) (s : State) : Host.Outcome State Fault Refusal :=
  .next (fbRun s l (.icall l ty off) fun L t => fbCall L t (t.ib.toNat + 16 * off.toNat) ty.toNat)

/-- ICALLR: calls the instance at the address in rs1 with the type in rs2[11:0] (R165). -/
def execIcallr (l : LaneId) (rs1 rs2 : Reg) (s : State) : Host.Outcome State Fault Refusal :=
  .next (fbRun s l (.icallr l rs1 rs2) fun L t =>
    let a := (getX t rs1).toNat
    let ty := (getX t rs2).toNat
    if 4096 ≤ ty || a % 16 ≠ 0 then .fault 7 else fbCall L t a ty)

/-- RET: pops a frame, or ends the run when the stack is empty (R166); a saved return PC is checked (R158). -/
def execRet (l : LaneId) (s : State) : Host.Outcome State Fault Refusal :=
  .next (fbRun s l (.ret l) fun _ t =>
    match t.stack with
    | [] => .done { task := none, weight := 2 }
    | (pc, ib) :: r =>
      if codeTargetOk pc.toNat then
        .done { task := some { t with pc := pc, ib := ib, stack := r }, weight := 2, items := [branchItem true pc],
                 evs := [{ cls := 3, n := 1, priv := 0, addr := some pc }] }
      else .fault 9)

/-- MOVIB: rd ← IB (R168). -/
def execMovib (l : LaneId) (rd : Reg) (s : State) : Host.Outcome State Fault Refusal :=
  .next (fbRun s l (.movib l rd) fun _ t => fbSet t rd t.ib 1)

/-! ## System instructions (R181) -/

/-- TIML: the cycle time value, bits [31:0] (R181). -/
def execTiml (l : LaneId) (rd : Reg) (s : State) : Host.Outcome State Fault Refusal :=
  .next (fbRun s l (.timl l rd) fun _ t => fbSet t rd (t.now.setWidth 32) 1 [] [t.now])

/-- TIMH: the cycle time value, bits [63:32] (R181). -/
def execTimh (l : LaneId) (rd : Reg) (s : State) : Host.Outcome State Fault Refusal :=
  .next (fbRun s l (.timh l rd) fun _ t => fbSet t rd ((t.now >>> 32).setWidth 32) 1 [] [t.now])

/-- CIXL: the cycle index, bits [31:0] (R181). -/
def execCixl (l : LaneId) (rd : Reg) (s : State) : Host.Outcome State Fault Refusal :=
  .next (fbRun s l (.cixl l rd) fun _ t => fbSet t rd (t.cyc.setWidth 32) 1)

/-- CIXH: the cycle index, bits [63:32] (R181). -/
def execCixh (l : LaneId) (rd : Reg) (s : State) : Host.Outcome State Fault Refusal :=
  .next (fbRun s l (.cixh l rd) fun _ t => fbSet t rd ((t.cyc >>> 32).setWidth 32) 1)

/-- FAIL: a requested fault with the reason rs1[15:0] (R181). -/
def execFail (l : LaneId) (rs1 : Reg) (s : State) : Host.Outcome State Fault Refusal :=
  .next (fbRun s l (.fail l rs1) fun _ t => .fault 12 ((getX t rs1).toNat % 65536))

/-- ILLEGAL_INSTRUCTION: a word that decodes to no instruction is an illegal-instruction fault (R145); a word that
decodes is not this event, and nothing happens. -/
def execIllegalInstruction (l : LaneId) (word : Word) (s : State) : Host.Outcome State Fault Refusal :=
  .next (match decodeFbWord l word with
    | some _ => s
    | none => fbRunWord s l word fun _ _ => .fault 1)

end Sys2Proof.Machine
end

