-- ==== Sys2Proof/Machine/FbMem.lean ====
section
/-! DEFINITION. Loads and stores of function-block code (R153-R155), the register blocks a non-vital task may reach
(R381, R453) and PMRD (R182). -/

namespace Sys2Proof.Machine

open Sys2Proof

/-- The address of a load or store (R153), a 32-bit sum. -/
def ldstAddr (t : Task) (ib : Bool) (rs1 : Reg) (imm : BitVec 12) : Nat :=
  ((if ib then t.ib else 0) + getX t rs1 + sext12 imm).toNat

/-- The cycle of some context that began at an activation has not ended its phase L in a lane. -/
def activationIn (act : Nat) (L : Lane) : Bool :=
  L.cfg.ctxs.any fun x =>
    let c := ctxRun L x.num
    x.present && x.num != 0 && c.busy && cycleRound x c.cyc.toNat == act

/-- The round of the session's activation. -/
def actRound (s : State) : Nat := (s.grp.session.elim 0 fun x => x.act).toNat

/-- A lane sees the module in SERVICE: an activation is a cause of RECOVERY to the end of its cycle's phase L (R458, R517). -/
def seesService (s : State) (L : Lane) : Bool :=
  if s.mod.activating then
    s.mod.op == .recovery && !activationIn (actRound s) L && !recovering { s with mod := { s.mod with activating := false } }
  else s.mod.op == .service

/-- Task reads of counters return values (R182, R453, R458): SERVICE, no activation, no self-test in the lane, PMU_USER 1. -/
def userOpen (s : State) (L : Lane) : Bool := seesService s L && !L.selfTest.running && s.grp.settings.pmuUser

/-- What a task reads of a counter register at an offset of the block (R453): VALUE_LO, VALUE_HI or USER_OPEN. -/
def ctrRead (s : State) (L : Lane) (off : Nat) : Word :=
  if 0x200 ≤ off then boolWord (userOpen s L)
  else if userOpen s L then
    let v := laneCtrValue s.free L (off / 0x20)
    if off % 0x20 < 4 then v.setWidth 32 else (v >>> 32).setWidth 32
  else 0

/-- The number a load of n bytes takes from its place. -/
def loadNat (s : State) (L : Lane) (a n : Nat) : Where → Nat
  | .sram => laneNat L a n
  | .valuz off => (valuzRead (L.valuz.toList[3]?.getD {}) (off / 4 * 4)).toNat / 2 ^ (8 * (off % 4)) % 2 ^ (8 * n)
  | .ctr off => (ctrRead s L (off / 4 * 4)).toNat / 2 ^ (8 * (off % 4)) % 2 ^ (8 * n)

/-- A load of n bytes (R153): the checks, then rd from the number loaded. -/
def fbLoad (s : State) (l : LaneId) (i : Instr) (ib : Bool) (rd rs1 : Reg) (imm : BitVec 12) (n : Nat)
    (ext : Nat → Word) : State :=
  fbRun s l i fun L t =>
    let a := ldstAddr t ib rs1 imm
    match accessCheck L t a n false with
    | .error c => .fault c
    | .ok w =>
      fbSet t rd (ext (loadNat s L a n w)) 1 [{ cls := 1, n := 1, priv := 0, addr := some (BitVec.ofNat 32 a) }]
        [BitVec.ofNat 64 (loadNat s L a n w)]

/-- A register of channel 3 after a store of n bytes (R380): the bytes merge into what the register reads as; GO and
ABORT act. Of both in one write ABORT acts first, so that the scan it ends no longer holds GO off (R382; DESIGN CHOICE, log 145). -/
def valuzStore (L : Lane) (t : Task) (off n v : Nat) : Lane :=
  let r := off / 4 * 4
  let old := (valuzRead (L.valuz.toList[3]?.getD {}) r).toNat
  let sh := 2 ^ (8 * (off % 4))
  let merged := old - (old / sh % 2 ^ (8 * n)) * sh + v % 2 ^ (8 * n) * sh
  let w := BitVec.ofNat 32 merged
  if r = 0x20 then
    let L1 := if w.getLsbD 1 then modLaneValuz L 3 valuzStop else L
    if w.getLsbD 0 then modLaneValuz L1 3 fun c => valuzStart c (laneScanOk L1 3 (some t.ctx)) else L1
  else modLaneValuz L 3 fun c => valuzWrite c r w true false

/-- A store of n bytes (R153): the checks, then the bytes wait in the outbound buffer and are signed (R39, R41). -/
def fbStore (s : State) (l : LaneId) (i : Instr) (ib : Bool) (rs rs1 : Reg) (imm : BitVec 12) (n : Nat) : State :=
  match fbTask? s l with
  | none => s
  | some t =>
    let L := lane s l
    let a := ldstAddr t ib rs1 imm
    let v := (getX t rs).toNat % 2 ^ (8 * n)
    match accessCheck L t a n true with
    | .error c => ctxFault s l t c 0 ((encodeFb i).getD 0)
    | .ok w =>
      let d : FbDone :=
        { task := some { t with pc := t.pc + 4 }, weight := 1,
          stores := if w = .sram then storeBytes a n v else [],
          items := [storeItem a (BitVec.ofNat 32 v)],
          evs := [{ cls := 2, n := 1, priv := 0, addr := some (BitVec.ofNat 32 a) }] }
      match w with
      | .valuz off => windowFull l (setLane s l (valuzStore (fbCommit L t d) t off n v))
      | _ => windowFull l (commitOrWait s l t d)

/-! ## The LDST group -/

/-- LD: rd ← word (R153). -/
def execLd (l : LaneId) (ibBase : Bool) (rd rs1 : Reg) (imm : BitVec 12) (s : State) :
    Host.Outcome State Fault Refusal :=
  .next (fbLoad s l (.ld l ibBase rd rs1 imm) ibBase rd rs1 imm 4 fun v => BitVec.ofNat 32 v)

/-- LDH: rd ← halfword, sign-extended (R153). -/
def execLdh (l : LaneId) (ibBase : Bool) (rd rs1 : Reg) (imm : BitVec 12) (s : State) :
    Host.Outcome State Fault Refusal :=
  .next (fbLoad s l (.ldh l ibBase rd rs1 imm) ibBase rd rs1 imm 2 fun v => (BitVec.ofNat 16 v).signExtend 32)

/-- LDHU: rd ← halfword, zero-extended (R153). -/
def execLdhu (l : LaneId) (ibBase : Bool) (rd rs1 : Reg) (imm : BitVec 12) (s : State) :
    Host.Outcome State Fault Refusal :=
  .next (fbLoad s l (.ldhu l ibBase rd rs1 imm) ibBase rd rs1 imm 2 fun v => BitVec.ofNat 32 v)

/-- LDB: rd ← byte, sign-extended (R153). -/
def execLdb (l : LaneId) (ibBase : Bool) (rd rs1 : Reg) (imm : BitVec 12) (s : State) :
    Host.Outcome State Fault Refusal :=
  .next (fbLoad s l (.ldb l ibBase rd rs1 imm) ibBase rd rs1 imm 1 fun v => (BitVec.ofNat 8 v).signExtend 32)

/-- LDBU: rd ← byte, zero-extended (R153). -/
def execLdbu (l : LaneId) (ibBase : Bool) (rd rs1 : Reg) (imm : BitVec 12) (s : State) :
    Host.Outcome State Fault Refusal :=
  .next (fbLoad s l (.ldbu l ibBase rd rs1 imm) ibBase rd rs1 imm 1 fun v => BitVec.ofNat 32 v)

/-- ST: word ← source (R153). -/
def execSt (l : LaneId) (ibBase : Bool) (rs rs1 : Reg) (imm : BitVec 12) (s : State) :
    Host.Outcome State Fault Refusal :=
  .next (fbStore s l (.st l ibBase rs rs1 imm) ibBase rs rs1 imm 4)

/-- STH: halfword ← source[15:0] (R153). -/
def execSth (l : LaneId) (ibBase : Bool) (rs rs1 : Reg) (imm : BitVec 12) (s : State) :
    Host.Outcome State Fault Refusal :=
  .next (fbStore s l (.sth l ibBase rs rs1 imm) ibBase rs rs1 imm 2)

/-- STB: byte ← source[7:0] (R153). -/
def execStb (l : LaneId) (ibBase : Bool) (rs rs1 : Reg) (imm : BitVec 12) (s : State) :
    Host.Outcome State Fault Refusal :=
  .next (fbStore s l (.stb l ibBase rs rs1 imm) ibBase rs rs1 imm 1)

/-- PMRD (R182): a counter's low or high part; forbidden in a vital context, an operand fault above 15, 0 when task
reads are closed. -/
def execPmrd (l : LaneId) (rd : Reg) (imm : BitVec 12) (high : Bool) (s : State) : Host.Outcome State Fault Refusal :=
  .next (fbRun s l (.pmrd l rd imm high) fun L t =>
    if (ctxCfg? L.cfg t.ctx).elim false (·.vital) then .fault 10
    else if 15 < imm.toNat then .fault 13
    else
      let v := ctrRead s L (0x20 * imm.toNat + (if high then 4 else 0))
      fbSet t rd v 1 [] [v.setWidth 64])

end Sys2Proof.Machine
end

