-- ==== Sys2Proof/Machine/FbPoint.lean ====
section
/-! DEFINITION. Process image access of function-block code (R159-R162). -/

namespace Sys2Proof.Machine

open Sys2Proof

/-- The event of an image access (R447). -/
def imageEv (p : Nat) : CtrEv := { cls := 5, n := 1, priv := 0, addr := some (BitVec.ofNat 32 (pointAddr p)) }

/-- A point load (R160): a sel the tables do not list is illegal, then the checks of R162. -/
def fbPointLoad (L : Lane) (t : Task) (rd : Reg) (p sel w : Nat) : FbRes :=
  match pointRead (laneWord L (pointAddr p)) sel with
  | none => .fault 1
  | some v =>
    match pointCheck L t p false with
    | some c => .fault c
    | none => fbSet t rd v w [imageEv p] [(laneWord L (pointAddr p)).setWidth 64]

/-- A point store (R161): the value field, bits [31:16] of the entry, alone is written. -/
def fbPointStore (L : Lane) (t : Task) (v : Word) (p sel w : Nat) : FbRes :=
  match pointVal v sel with
  | none => .fault 1
  | some x =>
    match pointCheck L t p true with
    | some c => .fault c
    | none =>
      let a := pointAddr p + 2
      .done { task := some { t with pc := t.pc + 4 }, weight := w, stores := storeBytes a 2 x.toNat,
               items := [storeItem a (x.setWidth 32)], evs := [imageEv p] }

/-- PLD (R160). -/
def execPld (l : LaneId) (rd : Reg) (pt : BitVec 17) (sel : BitVec 4) (s : State) : Host.Outcome State Fault Refusal :=
  .next (fbRun s l (.pld l rd pt sel) fun L t => fbPointLoad L t rd pt.toNat sel.toNat 1)

/-- PLDX: PLD of the point index in rs1 (R160). -/
def execPldx (l : LaneId) (rd rs1 : Reg) (sel : BitVec 4) (s : State) : Host.Outcome State Fault Refusal :=
  .next (fbRun s l (.pldx l rd rs1 sel) fun L t => fbPointLoad L t rd (getX t rs1).toNat sel.toNat 2)

/-- PST (R161). -/
def execPst (l : LaneId) (rs : Reg) (pt : BitVec 17) (sel : BitVec 4) (s : State) : Host.Outcome State Fault Refusal :=
  .next (fbRun s l (.pst l rs pt sel) fun L t => fbPointStore L t (getX t rs) pt.toNat sel.toNat 1)

/-- PSTX: PST of rs2 to the point index in rs1 (R161). -/
def execPstx (l : LaneId) (rs1 rs2 : Reg) (sel : BitVec 4) (s : State) : Host.Outcome State Fault Refusal :=
  .next (fbRun s l (.pstx l rs1 rs2 sel) fun L t => fbPointStore L t (getX t rs2) (getX t rs1).toNat sel.toNat 2)

end Sys2Proof.Machine
end

