-- ==== Sys2Proof/Machine/Service.lean ====
section
/-! DEFINITION. Service requests of the stations: responses, timeouts, and what ends them (R299-R303, R307). -/

namespace Sys2Proof.Machine

open Sys2Proof

/-- The lane whose views speak for the group: the first seated one that the debugger does not halt, since a halted one takes
nothing in (R55). -/
def viewLane (s : State) : Option LaneId := (seated s).find? fun l => !(lane s l).dbg.halted

/-- The first request of a station has ended: the next one goes out with a new SVC_SEQ (R301). -/
def svcNext (round : DWord) (v : SvcSt) : SvcSt :=
  let q := v.queue.drop 1
  { v with queue := q, sq := if q.isEmpty then v.sq else v.sq + 1, since := if q.isEmpty then none else some round }

/-- The group with the first request of a station ended. -/
def svcAdvance (s : State) (addr : Nat) : State :=
  modGrp s fun g => { g with svc := tblSet g.svc addr (svcNext g.round (tblGetD g.svc addr {})) }

/-- The hub that reports on an action of a hub: the survivor once that one was lost (R441, R442). -/
def reportHub (s : State) (h : HubId) (tag : Word) : HubId :=
  if (tagsOf s.grp h).any fun r => r.tag == tag && r.moved then peerHub h else h

/-- The REMOTE_WRITE_FAILED event of a write, while its station channel is open (R299, R303, R411): station channel handle,
PARAM, and RESULT or 0xFF for a timeout. -/
def writeFailed (s : State) (q : SvcReq) (result : Nat) : State :=
  if q.handle ≠ 0 then
    event s [reportHub s q.hub q.tag] 0x8009 none q.tag q.handle
      (leBytes 4 q.handle.toNat ++ leBytes 2 q.param.toNat ++ leBytes 1 result)
  else s

/-- A write ends: with RESULT 0 an OUTCOME event tells of its success, with another its failure is reported (R303, R438,
R575). -/
def endWrite (s : State) (q : SvcReq) (result : Nat) : State :=
  if result = 0 then outcome s q.hub q.tag stOk []
  else modTag (writeFailed s q result) q.hub q.tag fun r => { r with done := true }

/-- A request ends with a response: RESULT and data (R303). -/
def endService (s : State) (q : SvcReq) (result : Nat) (data : List Byte) : State :=
  if q.write then endWrite s q result
  else if result = 0 then endRead s q.hub q.tag stOk data
  else endRead s q.hub q.tag stRejected []

/-- The final response to a station's request in its uplink's service area: SVC_OP and SVC_SEQ echoed and a RESULT other
than 3 (R300, R301). -/
def svcResponse (v : SvcSt) (ans : List Byte) : Option (SvcReq × Nat × List Byte) :=
  match v.since, v.queue.head? with
  | some _, some q =>
    if 8 ≤ ans.length && leAt ans 0 1 == (if q.write then 2 else 1) && leAt ans 1 1 == v.sq.toNat && leAt ans 2 1 != 3 then
      some (q, leAt ans 2 1, sliceBytes ans 8 (min (leAt ans 3 1) (ans.length - 8)))
    else none
  | _, _ => none

/-- One station's response at a boundary. -/
def takeResponse (s : State) (e : Nat × SvcSt) : State :=
  match viewLane s with
  | none => s
  | some l =>
    match svcResponse e.2 (tblGetD (lane s l).stn e.1 {}).svcAns with
    | some (q, r, data) => svcAdvance (endService s q r data) e.1
    | none => s

/-- The responses of every station in the uplinks of the round that ended (R301). -/
def takeResponses (s : State) : State := s.grp.svc.foldl takeResponse s

/-- A request ends without a response: a read with REMOTE_TIMEOUT, a write with REMOTE_WRITE_FAILED (R303). -/
def endTimeout (s : State) (q : SvcReq) : State :=
  if q.write then endWrite s q 0xFF else endRead s q.hub q.tag stTimeout []

/-- SERVICE_TIMEOUT: a request without a final response for SVC_TIMEOUT rounds (R301). -/
def serviceTimeout (addr : Nat) (s : State) : State :=
  let v := tblGetD s.grp.svc addr {}
  match v.since, v.queue.head? with
  | some r, some q =>
    if r.toNat + s.grp.cfg.svcTimeout ≤ s.grp.round.toNat then svcAdvance (endTimeout s q) addr else s
  | _, _ => s

/-- SERVICE_TIMEOUT (R301). -/
def execServiceTimeout (addr : Nat) (s : State) : Host.Outcome State Fault Refusal :=
  .next (whenOn s (serviceTimeout addr))

/-- A service request of a station, stamped and not started. -/
def isServiceOf (addr : Nat) (a : Action) : Bool := match a.kind with
  | .service x _ _ _ _ => x == addr
  | _ => false

/-- The REQUEST_DISCARDED events of requests whose channel the image does not have (R482). -/
def discardRequests (as : List Action) (s : State) : State :=
  as.foldl (fun s a => event s [reportHub s a.hub a.tag] 0x8006 none a.tag a.handle []) s

/-- Every request of a station ends unknown, those queued and those only stamped (R307). -/
def dropService (s : State) (addr : Nat) : State :=
  let v := tblGetD s.grp.svc addr {}
  let stamped := ((queuedActions s).filter (isServiceOf addr)).filterMap reqOf
  let keep (as : List Action) : List Action := as.filter fun a => !isServiceOf addr a
  let s1 := modGrp ((v.queue ++ stamped).foldl endUnknown s) fun g =>
    { g with svc := tblSet g.svc addr { v with queue := [], since := none }, actions := keep g.actions }
  bothHubs.foldl (fun s h => modHub s h fun H => { H with outbox := keep H.outbox }) s1

end Sys2Proof.Machine
end

