-- ==== Sys2Proof/Machine/Update.lean ====
section
/-! DEFINITION. Updating with Oculley packages up to the plan, confirmation, hub firmware, and the flash writes that posted
commands wait for (R465-R476, R483-R490, R412, R575). The activation itself stands in Activate. -/

namespace Sys2Proof.Machine

open Sys2Proof

/-! ## The package (R465-R468) -/

/-- The fields of a header's 256 bytes (R465). -/
def parseOc (bs : List Byte) : OcHdr :=
  let flags := leAt bs 30 2
  { raw := bs, safety := leAt bs 24 2, settings := leAt bs 26 2, revertOk := flags.testBit 0, needFull := flags.testBit 1,
    hubFw := flags.testBit 2, atStart := flags.testBit 3, toHash := BitVec.ofNat 256 (leAt bs 64 32),
    toHat := BitVec.ofNat 64 (leAt bs 96 8), toImage := BitVec.ofNat 64 (leAt bs 104 8),
    notBefore := BitVec.ofNat 64 (leAt bs 120 8), blocks := leAt bs 128 4, maxBlock := leAt bs 132 4,
    toLen := leAt bs 136 4, actOps := leAt bs 140 4 }

/-- FIRST_HASH of a header. -/
def firstHash (bs : List Byte) : BitVec 256 := BitVec.ofNat 256 (leAt bs 144 32)

/-- The active bank hash on which at least two seats agree (R468). -/
def agreedHash (s : State) (h : BitVec 256) : Bool := 2 ≤ ((seated s).filter fun l => activeHash (lane s l).nv == h).length

/-- The lanes that are not retired. -/
def liveLanes (s : State) : List LaneId := allLanes.filter fun l => (lane s l).nv.retire == 0

/-- The first check of R468 that a header fails, by its cause. -/
def openCause (s : State) (bs : List Byte) : Option Nat :=
  let x := parseOc bs
  let key := s.grp.cfg.updateKey
  if leAt bs 0 4 ≠ 0x4C55434F || leAt bs 4 1 ≠ 1 || leAt bs 6 2 ≠ 256 then some 1
  else if sliceBytes bs 8 16 ≠ sliceBytes orderCode 0 16 then some 2
  else if key = 0 || !edVerify (leBytes 32 key.toNat) (sliceBytes bs 0 192) (sliceBytes bs 192 64) then some 3
  else if !agreedHash s (BitVec.ofNat 256 (leAt bs 32 32)) then some 4
  else if leAt bs 28 2 ≠ 1 || x.blocks = 0 || 65535 < x.blocks || 65536 < x.maxBlock || 0xC00000 < x.toLen ||
      1410000 < x.actOps then some 5
  else if s.grp.session.isSome || (liveLanes s).any fun l => (lane s l).nv.probation then some 6
  else none

/-! ## Sessions (R469, R489) -/

/-- The open handle of the session. -/
def sessHandle (g : Group) : Option Handle :=
  g.session.bind fun x => g.handles.find? fun h => h.word == x.handle && handleType h.word == 6

/-- The session's handle closed. -/
def closeSess (g : Group) : Group :=
  match sessHandle g with
  | some h => closeHandle g h
  | none => g

/-- A session under a new handle on a hub (R404, R468). -/
def openSess (s : State) (h : HubId) (x : Session) : State × Word :=
  let g := s.grp
  let idx := (freeIdx g h 6 16384).getD 0
  let w := handleWord 6 (slotGen g 6 h idx) idx
  let hd : Handle := { word := w, hub := h, server := h, obj := .other 6 }
  (modGrp s fun g => { g with handles := g.handles ++ [hd], session := some { x with handle := w, hub := h } }, w)

/-- The session changed, in the group and in every lane's journal; a journal keeps the block it stands at. -/
def modSess (s : State) (f : Session → Session) : State :=
  modLanes (modGrp s fun g => { g with session := g.session.map f }) (liveLanes s) fun _ L =>
    { L with nv := { L.nv with sess := L.nv.sess.map fun z => { f z with next := z.next, expHash := z.expHash } } }

/-- The session is in one of some states. -/
def sessIn (s : State) (p : SessSt → Bool) : Bool := s.grp.session.any fun x => p x.st

/-- The session ends and its handle with it (R483, R489). -/
def endSess (s : State) : State :=
  let s1 := modGrp s fun g => { closeSess g with session := none, actAt := none }
  modLanes s1 (liveLanes s1) fun _ L => { L with upd := {}, nv := { L.nv with sess := none, staged := [] } }

/-- UPDATE_OPEN (R468, R469): a header already held takes its session up again under a new handle; another is checked
first. Either handle counts toward the 16,384 (R404). -/
def updateOpenCmd (hd : Hdr) (bs : List Byte) : State → State :=
  hostCmd (.updateOpen hd bs) { opcode := 0x0501, maxRep := 8, allowed := inRun } hd (fun _ => hd.plen == 256 && bs.length == 256) anySeal
    fun s =>
      match s.grp.session.filter fun x => x.hdr.raw == bs with
      | some x =>
        let s0 := modGrp s closeSess
        if 16384 ≤ s0.grp.handles.length then answer s hd 0x0501 stNoResource []
        else
          let (s1, w) := openSess s0 hd.hub x
          answerH s1 hd 0x0501 w stOk []
      | none =>
        match openCause s bs with
        | some c => answer s hd 0x0501 stHeaderRefused (leBytes 2 c)
        | none =>
          if 16384 ≤ s.grp.handles.length then answer s hd 0x0501 stNoResource []
          else
            let x : Session := { hdr := parseOc bs, expHash := firstHash bs }
            let (s1, w) := openSess s hd.hub x
            let s2 := modLanes s1 (liveLanes s1) fun _ L =>
              { L with upd := {}, nv := { L.nv with sess := some x, staged := [] } }
            answerH s2 hd 0x0501 w stOk []

/-- UPDATE_OPEN (R468). -/
def execUpdateOpen (hd : Hdr) (hdr : List (BitVec 8)) (s : State) : Host.Outcome State Fault Refusal :=
  .next (whenOn s (updateOpenCmd hd hdr))

/-! ## Download (R470-R472) -/

/-- The last 32 bytes of a block: NEXT_HASH (R467). -/
def nextHash (data : List Byte) : BitVec 256 := BitVec.ofNat 256 (leAt data (data.length - 32) 32)

/-- The session after a block has been accepted. -/
def blockTaken (data : List Byte) (x : Session) : Session :=
  { x with next := x.next + 1, expHash := nextHash data, st := if x.next + 1 = x.hdr.blocks then .applying else x.st }

/-- The lane collects blocks: neither in self-test nor fenced, and it has missed none (R470, R472). -/
def collects (L : Lane) : Bool := !L.selfTest.running && !L.fenced && !L.upd.missed

/-- A block passes the lanes' checks (R470). -/
def blockOk (x : Session) (no len : Nat) (data : List Byte) : Bool :=
  no == x.next && len ≤ x.hdr.maxBlock && data.length == len && sha256Num data == x.expHash

/-- The hub has read a block from host memory in the bulk class, cut as R431 says (R428, R470). -/
def blockRead (h : HubId) (addr : DWord) (len : Nat) (s : State) : State :=
  modHub s h (readDone .bulk (cutBursts maxRead (len / 128 + len / 4096 + 2) addr.toNat len))

/-- UPDATE_BLOCK: a block that passes goes to every lane's staging area; the reply follows once each has journalled it
(R470). -/
def updateBlockCmd (hd : Hdr) (no : Nat) (src : BlockRef) (data : List Byte) : State → State :=
  hostCmd (.updateBlock hd no src data) { opcode := 0x0502, maxRep := 0, ty := some 6, allowed := inRun } hd (plenIs hd 16) anySeal fun s0 =>
    let s := blockRead hd.hub src.addr src.len s0
    match s.grp.session.filter fun x => x.st == .download with
    | none => answer s hd 0x0502 stNotPermitted []
    | some x =>
      if !blockOk x no src.len data then answer s hd 0x0502 stBadValue []
      else
        let w : Waiting := { tag := hd.tag, handle := hd.handle, opcode := 0x0502, flags := hdrFlags hd }
        let p : PendWrite := { what := .journalBlock, hub := hd.hub, tag := hd.tag, data := data }
        let s1 := modGrp s fun g => { g with session := some (blockTaken data x) }
        let s2 := modLanes s1 (liveLanes s1) fun _ L =>
          if collects L then { L with writes := L.writes ++ [p] } else { L with upd := { L.upd with missed := true } }
        modHub s2 hd.hub fun H => { H with pendRd := H.pendRd ++ [w] }

/-- UPDATE_BLOCK (R470). -/
def execUpdateBlock (hd : Hdr) (no : Nat) (src : BlockRef) (data : List (BitVec 8)) (s : State) :
    Host.Outcome State Fault Refusal := .next (whenOn s (updateBlockCmd hd no src data))

/-- LANE_STATE of a lane that collects (R490): applying while blocks are staged, applied after the last one. -/
def stageSt (nv : LaneNv) : Nat :=
  if !nv.staged.isEmpty then 1 else if nv.sess.any fun z => z.next == z.hdr.blocks then 2 else 0

/-- A bank with `n` bytes of another content copied in. -/
def bankCopyIn (b src : Mem) (dst from_ n : Nat) : Mem :=
  memCopy b ((memRange src from_ (from_ + n)).map fun c => (c.1 - from_ + dst, c.2)) dst (dst + n)

/-- The operations of a block's body carried out (R467): the content and its end after them; `fuel` bounds their number. -/
def applyOps (act : Mem) : Nat → List Byte → Mem × Nat → Mem × Nat
  | 0, _, x => x
  | fuel + 1, bs, x =>
    if bs.length < 12 then x
    else
      let dst := leAt bs 4 4
      let n := leAt bs 8 4
      if leAt bs 0 1 = 1 then
        applyOps act fuel (bs.drop 16) (bankCopyIn x.1 act dst (leAt bs 12 4) n, dst + n)
      else applyOps act fuel (bs.drop (12 + (n + 3) / 4 * 4)) (memPutBytes x.1 dst (sliceBytes bs 12 n), dst + n)

/-- A lane applies its first staged block into its inactive bank, erased before block 0, and discards it (R471). -/
def applyBlock (nv : LaneNv) : LaneNv :=
  match nv.staged with
  | [] => nv
  | b :: r =>
    let old : Bank := if leAt b 0 4 = 0 then {} else inactiveBank nv
    let (data, len) := applyOps (activeBank nv).data b.length (sliceBytes b 8 (leAt b 4 4)) (old.data, old.len)
    let bank : Bank := { old with data := data, len := len, hash := none }
    { setBank nv (!activeIsB nv) bank with staged := r }

/-- A lane's first staged block and the one after it are undamaged: block 0 has FIRST_HASH, a later one the NEXT_HASH of the block
before it (R467, R472). -/
def stagedOk (nv : LaneNv) : Bool :=
  match nv.staged with
  | [] => true
  | b :: r =>
    (leAt b 0 4 != 0 || nv.sess.all fun z => sha256Num b == firstHash z.hdr.raw) &&
      (r.head?).all fun c => sha256Num c == nextHash b

/-- BLOCK_APPLIED: background work, deferred while the journal is closed (R22, R471, R544). A lane that finds its
staging damaged applies nothing of it and has missed its blocks (R472). -/
def blockApplied (l : LaneId) (s : State) : State :=
  let L := lane s l
  if L.nv.retire ≠ 0 || L.selfTest.running || !L.journal || L.nv.staged.isEmpty || !bgTurn s l 7 then s
  else if !stagedOk L.nv then
    setLane s l { L with nv := { L.nv with staged := [] }, upd := { L.upd with missed := true, st := 0 } }
  else
    let nv := applyBlock L.nv
    setLane s l { L with nv := nv, upd := { L.upd with st := stageSt nv } }

/-- BLOCK_APPLIED (R471). -/
def execBlockApplied (l : LaneId) (s : State) : Host.Outcome State Fault Refusal := .next (whenOn s (blockApplied l))

/-! ## Verification (R472-R474) -/

/-- The image a bank holds, as loading it would give: its memory and its configuration. -/
def bankImage (b : Bank) : Mem × Cfg :=
  let m := loadMem b.data []
  (m, parseCfg m (bankCfgBase b.data))

/-- An entry of the migration table (R481). -/
structure Migration where
  kind  : Nat
  old   : Nat
  new   : Nat
  units : Nat
  deriving DecidableEq, Repr

/-- The migration table of a bank. -/
def migrations (d : Mem) : List Migration :=
  match bankSection d 4 with
  | none => []
  | some (off, len) => (List.range (len / 16)).map fun k =>
    { kind := memNat d (off + 16 * k) 4, old := memNat d (off + 16 * k + 4) 4, new := memNat d (off + 16 * k + 8) 4,
      units := memNat d (off + 16 * k + 12) 4 }

/-- Bytes of the instance area that the migration writes from the initial image (R481). -/
def freshBytes (d : Mem) : Nat :=
  let all := (bankSection d 3).elim 0 (·.2)
  all - (((migrations d).filter fun e => e.kind == 1).map fun e => 16 * e.units).foldl (· + ·) 0 +
    (((migrations d).filter fun e => e.kind == 2).map fun e => 16 * e.units).foldl (· + ·) 0

/-- The size of the activation list (R473): differing code words, the new configuration block, the migration's data. -/
def listSize (code new d : Mem) : Nat :=
  4 * ((List.range 0x80000).filter fun k => memWord code (4 * k) != memWord new (4 * k)).length + bankCfgLen d + freshBytes d

/-- A lane's verdict on its inactive bank (R473). -/
def bankVerdict (L : Lane) (x : OcHdr) : Nat :=
  let b := inactiveBank L.nv
  let (m, c) := bankImage b
  if sha256Num (memBytes b.data 0 x.toLen) != x.toHash then 1
  else if !bankDirOk b.data x.toLen then 2
  else if hatOf m (bankCfgBase b.data) (bankCfgLen b.data) != x.toHat then 3
  else if !imageStarts c m x.safety then 4
  else if 393216 < listSize L.mem m b.data then 5
  else 0

/-- The verdict of a lane: retired 6; a lane that has missed blocks holds no content with the right hash. -/
def laneVerdict (L : Lane) (x : OcHdr) : Nat := if L.nv.retire ≠ 0 then 6 else if L.upd.missed then 1 else bankVerdict L x

/-- A bank recorded as the new image (R465, R466). -/
def recordBank (x : OcHdr) (b : Bank) : Bank :=
  { b with hash := some x.toHash, major := some (BitVec.ofNat 16 x.safety), sfmt := some (BitVec.ofNat 16 x.settings) }

/-- LANE_STATE after a verdict (R490). -/
def verdictSt (v : Nat) : Nat := if v = 0 then 3 else if v = 1 then 4 else if v = 6 then 6 else 5

/-- A lane takes its verdict. -/
def verdictLane (x : OcHdr) (v : Nat) (L : Lane) : Lane :=
  let nv := if v = 0 then setBank L.nv (!activeIsB L.nv) (recordBank x (inactiveBank L.nv)) else L.nv
  { L with nv := nv, upd := { missed := v == 1, st := verdictSt v, verdict := some v } }

/-- UPDATE_VERIFY: permitted once every block has been accepted (R473). -/
def updateVerifyCmd (hd : Hdr) : State → State :=
  hostCmd (.updateVerify hd) { opcode := 0x0503, maxRep := 0, ty := some 6, allowed := inRun } hd (plenIs hd 0) anySeal fun s =>
    if sessIn s (· == .applying) then
      modSess (accept s hd 0x0503) fun x => { x with st := .verifying, vTag := some (hd.hub, hd.tag) }
    else answer s hd 0x0503 stNotPermitted []

/-- UPDATE_VERIFY (R473). -/
def execUpdateVerify (hd : Hdr) (s : State) : Host.Outcome State Fault Refusal := .next (whenOn s (updateVerifyCmd hd))

/-- A lane has finished its application, or takes no part in it: retired or with blocks missed. -/
def applicationDone (L : Lane) : Bool :=
  L.nv.retire != 0 || L.upd.missed ||
    (L.nv.staged.isEmpty && !L.selfTest.running && (L.writes.all fun w => w.what != .journalBlock) &&
      L.nv.sess.any fun z => z.next == z.hdr.blocks)

/-- The seat whose new hat differs from those of the other two (R474). -/
def oddNewHat (s : State) : Option LaneId :=
  let hat (l : LaneId) : DWord :=
    let b := inactiveBank (lane s l).nv
    hatOf (bankImage b).1 (bankCfgBase b.data) (bankCfgLen b.data)
  let sent := (seated s).filter fun l => !(lane s l).upd.missed && (lane s l).upd.verdict != some 2
  match sent with
  | [a, b, c] =>
    if hat a == hat b && hat c != hat a then some c
    else if hat a == hat c && hat b != hat a then some b
    else if hat b == hat c && hat a != hat b then some a
    else none
  | _ => none

/-- The session after the verdicts (R473): FAILED with the verdict of a seated lane other than by hash; VERIFIED once every
seated lane has verified. -/
def sessVerdict (s : State) (x : Session) : Session :=
  match (seated s).find? fun l => (lane s l).upd.st == 5 with
  | some l => { x with st := .failed, cause := (lane s l).upd.verdict.getD 0 }
  | none => if (seated s).all fun l => (lane s l).upd.st == 3 then { x with st := .verified } else x

/-- UPDATE_VERIFY_COMPLETE: every lane has its verdict (R473, R474, R472). -/
def verifyDone (s : State) : State :=
  match s.grp.session with
  | none => s
  | some x =>
    if x.st ≠ .verifying || x.vTag.isNone || !allLanes.all fun l => applicationDone (lane s l) then s
    else
      let vs := allLanes.map fun l => laneVerdict (lane s l) x.hdr
      let s1 := modLanes s allLanes fun l L => verdictLane x.hdr (laneVerdict (lane s l) x.hdr) L
      let y := sessVerdict s1 x
      let s2 := modSess s1 fun z => { z with st := y.st, cause := y.cause, vTag := none }
      let s3 := modLanes s2 (liveLanes s2) fun _ L => { L with verified := y.st == .failed || L.upd.st == 3 }
      let s4 := match x.vTag with
        | some (h, tag) => outcome s3 h tag stOk (vs.flatMap (leBytes 1))
        | none => s3
      let s5 := match oddNewHat s1 with
        | some l => fence s4 l 2 0 (vitalCycle s4) 0xFFFF
        | none => s4
      settle s5 3

/-- UPDATE_VERIFY_COMPLETE (R473). -/
def execUpdateVerifyComplete (s : State) : Host.Outcome State Fault Refusal := .next (whenOn s verifyDone)

/-- A lane with the whole new content of a verified seat, verified in its turn; a copy that fails leaves it waiting
(R472). -/
def copyNew (src : Lane) (x : OcHdr) (L : Lane) : Lane :=
  let L1 := { L with nv := { setBank L.nv (!activeIsB L.nv) (inactiveBank src.nv) with staged := [], sess := src.nv.sess } }
  if bankVerdict L1 x = 0 then
    { L1 with verified := true, nv := setBank L1.nv (!activeIsB L1.nv) (recordBank x (inactiveBank L1.nv)),
              upd := { st := 3, verdict := some 0 } }
  else L1

/-- The copied content of a bank has the hash recorded with it (R472). -/
def copyOk (b : Bank) : Bool := b.hash.all (· == sha256Num (memBytes b.data 0 b.len))

/-- A lane with the active content of a seat, as its own active bank and with the seat's records; once the copy is verified it loads
next, and a copy that fails leaves it waiting (R472, R524). -/
def copyActive (src L : Lane) : Lane :=
  if !copyOk (activeBank src.nv) then L else
  let nv := setBank L.nv (!activeIsB L.nv) (activeBank src.nv)
  { L with imgOk := true, loaded := false, barred := false, verified := true, upd := src.upd,
           nv := { matchActive nv (!activeIsB nv) (activeSeq src.nv) with
             sealRec := src.nv.sealRec, sealOld := src.nv.sealOld, probation := src.nv.probation, sess := src.nv.sess,
             staged := [] } }

/-- A lane's content can come from a seat: another one, seated, over a working strait. -/
def copyFrom (s : State) (l src : LaneId) : Bool :=
  let L := lane s l
  l != src && isSeated s src && !straitFailed s.grp l src && L.nv.retire == 0 && !L.selfTest.running && !L.fenced

/-- BANK_COPY_COMPLETE (R472): of the new content before the activation; of the active content for a lane that the
activation or the image vote has left behind. -/
def bankCopied (l src : LaneId) (s : State) : State :=
  let L := lane s l
  let S := lane s src
  if !copyFrom s l src || !bgTurn s l 7 then s
  else
    let before := s.grp.session.filter fun x =>
      x.vTag.isNone && (x.st == .verifying || x.st == .verified || x.st == .planned)
    match before with
    | some x =>
      if L.upd.st = 4 && S.upd.st = 3 && L.imgOk then
        let s1 := setLane s l (copyNew S x.hdr L)
        let s2 := if x.st = .verifying then
            let y := sessVerdict s1 x
            modSess s1 fun z => { z with st := y.st }
          else s1
        settle s2 3
      else if !L.imgOk then setLane s l { copyActive S L with upd := { missed := true, st := 4 }, verified := false }
      else s
    | none =>
      if (!L.imgOk || !L.verified) && !isSeated s l then setLane s l (copyActive S L) else s

/-- BANK_COPY_COMPLETE (R472). -/
def execBankCopyComplete (l : LaneId) (src : LaneId) (s : State) : Host.Outcome State Fault Refusal :=
  .next (whenOn s (bankCopied l src))

/-! ## Plan, confirmation, abort, status (R475, R476, R483, R489, R490) -/

/-- Every vital context of a configuration starts a cycle at a round. -/
def vitalsStart (c : Cfg) (r : Nat) : Bool :=
  (c.ctxs.filter fun x => x.vital && x.present && x.num != 0).all fun x => startsAt x r

/-- The configuration of the new image, as the lowest seated lane holds it. -/
def newCfg (s : State) : Cfg := ((seated s).head?).elim {} fun l => (bankImage (inactiveBank (lane s l).nv)).2

/-- ACT_ROUND meets R475. -/
def planOk (s : State) (x : OcHdr) (act : Nat) : Bool :=
  let r := s.grp.round.toNat
  x.notBefore.toNat ≤ act && r + 200 ≤ act && 20000 ≤ (act - r) * roundTicks s &&
    (act - r) * roundTicks s ≤ 7 * ticks24h && vitalsStart s.grp.cfg act && vitalsStart (newCfg s) act

/-- UPDATE_PLAN: the activation is stamped, and every lane journals the plan (R475). -/
def updatePlanCmd (hd : Hdr) (act : DWord) : State → State :=
  hostCmd (.updatePlan hd act) { opcode := 0x0504, maxRep := 8, ty := some 6, allowed := inRun } hd (plenIs hd 8) anySeal fun s =>
    match s.grp.session.filter fun x => x.st == .verified with
    | none => answer s hd 0x0504 stNotPermitted []
    | some x =>
      if !planOk s x.hdr act.toNat then answer s hd 0x0504 stBadValue []
      else
        let s1 := modSess s fun z => { z with st := .planned, act := act }
        answer (modGrp s1 fun g => { g with actAt := some act, actBy := (hd.hub, g.order), order := g.order + 1 }) hd 0x0504 stOk (leBytes 8 act.toNat)

/-- UPDATE_PLAN (R475). -/
def execUpdatePlan (hd : Hdr) (act : BitVec 64) (s : State) : Host.Outcome State Fault Refusal :=
  .next (whenOn s (updatePlanCmd hd act))

/-- UPDATE_CONFIRM: each lane writes its CONFIRMED record (R483). -/
def updateConfirmCmd (hd : Hdr) : State → State :=
  hostCmd (.updateConfirm hd) { opcode := 0x0505, maxRep := 0, ty := some 6, allowed := inRun } hd (plenIs hd 0) anySeal fun s =>
    if sessIn s (· == .probation) then
      startWrites (modSess (accept s hd 0x0505) fun x => { x with cTag := some (hd.hub, hd.tag) }) .confirmed hd []
    else answer s hd 0x0505 stNotPermitted []

/-- UPDATE_CONFIRM (R483). -/
def execUpdateConfirm (hd : Hdr) (s : State) : Host.Outcome State Fault Refusal := .next (whenOn s (updateConfirmCmd hd))

/-- The session states in which UPDATE_ABORT is permitted (R489). -/
def mayAbort (st : SessSt) : Bool := st != .planned && st != .probation

/-- The block commands that still wait for the lanes end with the session (R489). -/
def dropBlocks (s : State) : State :=
  let ws := (allLanes.flatMap fun l => (lane s l).writes).filter fun w => w.what == .journalBlock
  let s1 := modLanes s allLanes fun _ L => { L with writes := L.writes.filter fun w => w.what != .journalBlock }
  ws.foldl (fun s w => endRead s w.hub w.tag stNotPermitted []) s1

/-- UPDATE_ABORT: the staging area is discarded, the inactive bank marked empty, and the session ends (R489). A
verification in progress ends without verdicts. -/
def updateAbortCmd (hd : Hdr) : State → State :=
  hostCmd (.updateAbort hd) { opcode := 0x0506, maxRep := 0, ty := some 6, allowed := fun o => inRun o || inSafe o } hd (plenIs hd 0) anySeal
    fun s =>
      if !sessIn s mayAbort then answer s hd 0x0506 stNotPermitted []
      else
        let s1 := match s.grp.session.bind (·.vTag) with
          | some (h, tag) => outcome s h tag stNotPermitted []
          | none => s
        let s2 := endSess (dropBlocks s1)
        let s3 := modLanes s2 (liveLanes s2) fun _ L => { L with verified := true, nv := setBank L.nv (!activeIsB L.nv) {} }
        answer (settle s3 3) hd 0x0506 stOk []

/-- UPDATE_ABORT (R489). -/
def execUpdateAbort (hd : Hdr) (s : State) : Host.Outcome State Fault Refusal := .next (whenOn s (updateAbortCmd hd))

/-- The code of a session state (R490). -/
def sessCode : SessSt → Nat
  | .download => 0
  | .applying => 1
  | .verifying => 2
  | .verified => 3
  | .planned => 4
  | .probation => 5
  | .failed => 6

/-- LANE_STATE of a lane (R490). -/
def laneUpdState (L : Lane) : Nat := if L.nv.retire ≠ 0 then 6 else L.upd.st

/-- The blocks a lane has applied: those its journal has taken less those still staged (R471). -/
def blocksApplied (nv : LaneNv) : Nat := (nv.sess.elim 0 (·.next)) - nv.staged.length

/-- Bytes of new content a lane has written (R490): none before its first block is applied. -/
def writtenLen (x : OcHdr) (L : Lane) : Nat :=
  if L.upd.st = 3 then x.toLen else if blocksApplied L.nv = 0 then 0 else (inactiveBank L.nv).len

/-- The 32 bytes of UPDATE_STATUS (R490). -/
def updateStatusBytes (s : State) (x : Session) : List Byte :=
  let kib := ((liveLanes s).map fun l => writtenLen x.hdr (lane s l) / 1024).foldl min (x.hdr.toLen / 1024)
  leBytes 1 (sessCode x.st) ++ (allLanes.flatMap fun l => leBytes 1 (laneUpdState (lane s l))) ++ [0, 0, 0] ++
    leBytes 4 x.next ++ leBytes 4 kib ++ leBytes 8 (if x.st = .planned then x.act.toNat else 0) ++ leBytes 2 x.cause ++
    leBytes 1 x.hdr.revertOk.toNat ++ List.replicate 5 0

/-- UPDATE_STATUS (R490). -/
def updateStatusCmd (hd : Hdr) : State → State :=
  hostCmd (.updateStatus hd) { opcode := 0x0507, maxRep := 32, ty := some 6, allowed := notStart } hd (plenIs hd 0) anySeal fun s =>
    match s.grp.session with
    | some x => answer s hd 0x0507 stOk (updateStatusBytes s x)
    | none => answer s hd 0x0507 stNotPermitted []

/-- UPDATE_STATUS (R490). -/
def execUpdateStatus (hd : Hdr) (s : State) : Host.Outcome State Fault Refusal := .next (whenOn s (updateStatusCmd hd))

/-! ## Flash writes (R412, R470, R483, R575) -/

/-- A finished write in a lane's flash. -/
def applyWrite (w : PendWrite) (L : Lane) : Lane :=
  match w.what with
  | .settings => { L with nv := writeSaved L.nv w.vals }
  | .settingsErase => { L with nv := { L.nv with set0 := {}, set1 := {} } }
  | .journalBlock =>
    let nv := { L.nv with staged := L.nv.staged ++ [w.data], sess := L.nv.sess.map (blockTaken w.data) }
    { L with nv := nv, upd := { L.upd with st := stageSt nv } }
  | .confirmed =>
    if L.nv.probation then { L with upd := {}, nv := { L.nv with probation := false, sess := none, sealOld := none } } else L

/-- Some lane of a list still has the write of a command before it. -/
def writePending (s : State) (ls : List LaneId) (w : PendWrite) : Bool :=
  ls.any fun l => (lane s l).writes.any fun x => x.what == w.what && x.hub == w.hub && x.tag == w.tag

/-- The factory reset of a command still waits for its boundary (R412). -/
def factoryWaits (s : State) (h : HubId) (tag : Word) : Bool :=
  (queuedActions s).any fun a => a.kind == .factory && a.hub == h && a.tag == tag

/-- A posted command has no outcome yet. -/
def tagOpen (s : State) (h : HubId) (tag : Word) : Bool := (tagsOf s.grp h).any fun r => r.tag == tag && !r.done

/-- The outcome of a posted command whose writes are done; none before, and none twice (R575). -/
def writeOutcome (s : State) (w : PendWrite) : State :=
  if writePending s (seated s) w || factoryWaits s w.hub w.tag || !tagOpen s w.hub w.tag then s
  else outcome s w.hub w.tag stOk []

/-- The session confirmed: it ends, and with HUB_FW the hubs take the new firmware (R483, R487). -/
def confirmDone (s : State) : State :=
  let fw := (s.grp.session.filter fun x => x.hdr.hubFw).bind fun _ => seatedFirmware s
  let s1 := endSess s
  match fw with
  | some bytes => bothHubs.foldl (fun s h => modHub s h (takeFirmware (Config.fwVersionOf bytes))) s1
  | none => s1

/-- What follows a finished write. -/
def writeEnded (w : PendWrite) (s : State) : State :=
  match w.what with
  | .settings => writeOutcome s w
  | .settingsErase => writeOutcome s w
  | .journalBlock => if writePending s (liveLanes s) w then s else endRead s w.hub w.tag stOk []
  | .confirmed =>
    let s1 := writeOutcome s w
    if !writePending s (seated s) w && s.grp.session.any (fun x => x.st == .probation && x.cTag.isSome) then confirmDone s1
    else s1

/-- What waits for every seat is looked at again as the seats change (R473, R483, R489, R491): a session that has its verdicts, and the
writes of commands. -/
def updateRound (s : State) : State :=
  let s1 := match s.grp.session with
    | some x =>
      if x.st = .verifying && x.vTag.isNone then
        let y := sessVerdict s x
        if y.st = .verifying then s else modSess s fun z => { z with st := y.st, cause := y.cause }
      else s
    | none => s
  (allLanes.flatMap fun l => (lane s1 l).writes).foldl (fun s w => writeEnded w s) s1

/-- FLASH_WRITE_COMPLETE: the oldest write of its kind in the lane ends; a closed journal ends none (R544, R575). -/
def flashWritten (l : LaneId) (what : FlashWrite) (s : State) : State :=
  let L := lane s l
  match L.writes.find? fun w => w.what == what with
  | none => s
  | some w => if L.journal then writeEnded w (setLane s l (applyWrite w { L with writes := L.writes.erase w })) else s

/-- FLASH_WRITE_COMPLETE (R575). -/
def execFlashWriteComplete (l : LaneId) (what : FlashWrite) (s : State) : Host.Outcome State Fault Refusal :=
  .next (whenOn s (flashWritten l what))

/-! ## Hub firmware (R487) -/

/-- A hub stops to restart on its new firmware: for the lanes and the host a hub that has stopped (R446, R487). -/
def hubStops (H : Hub) : Hub := { stopHub H with fwNew := none }

/-- HUB_FW_RESTART: H1 first; H0 once H1 has restarted and runs its rings again (R487). -/
def fwRestart (h : HubId) (s : State) : State :=
  let H := hub s h
  let turn := match h with
    | .h1 => true
    | .h0 => s.hubs.b.fwNew.isNone && s.hubs.b.fwRunning && s.hubs.b.running
  if H.fwNew.isSome && H.fwRunning && turn then modHub s h hubStops else s

/-- HUB_FW_RESTART (R487). -/
def execHubFwRestart (h : HubId) (s : State) : Host.Outcome State Fault Refusal := .next (whenOn s (fwRestart h))

/-- HUB_FW_RESTART_TIMEOUT: 60 s after H1's restart, without its rings (R487). -/
def fwTimeout (s : State) : State :=
  if s.hubs.a.fwNew.isSome && s.hubs.a.fwRunning && s.hubs.b.fwNew.isNone && !s.hubs.b.running then modHub s .h0 hubStops
  else s

/-- HUB_FW_RESTART_TIMEOUT (R487). -/
def execHubFwRestartTimeout (s : State) : Host.Outcome State Fault Refusal := .next (whenOn s fwTimeout)

end Sys2Proof.Machine
end

