-- ==== Sys2Proof/Machine/Activate.lean ====
section
/-! DEFINITION. The update activation at its round boundary (R477-R482, R486, R491). -/

namespace Sys2Proof.Machine

open Sys2Proof

/-! ## Decision (R478) -/

/-- The operating states in which an activation goes ahead. -/
def mayActivate (o : OpState) : Bool := o == .bench || o == .service || o == .recovery

/-- Why an activation is abandoned at its round: 1 state, 2 group not FULL, 3 seat not verified; none goes ahead. -/
def actCause (s : State) (x : Session) : Option Nat :=
  if !mayActivate s.mod.op then some 1
  else if x.hdr.needFull && s.grp.gst != .full then some 2
  else if !(seated s).all fun l => (lane s l).upd.st == 3 then some 3
  else none

/-- The UPDATE_ACTIVATION event on the system ring of the hub that serves the session, with its handle and TAG 0 (R411,
R479). -/
def actEvent (s : State) (act : DWord) (status cause : Nat) : State :=
  match sessHandle s.grp with
  | some h => event s [h.server] 0x800C none 0 h.word (leBytes 8 act.toNat ++ leBytes 2 status ++ leBytes 2 cause)
  | none => s

/-- An abandoned activation: the session is VERIFIED again (R476, R478). -/
def abandon (s : State) (act : DWord) (cause : Nat) : State :=
  let s1 := modSess s fun x => { x with st := .verified, cause := cause, act := 0 }
  actEvent (modGrp s1 fun g => { g with actAt := none }) act stNotPermitted cause

/-! ## Migration (R480, R481) -/

/-- The type of the instance whose header stands at an address: 16-byte aligned, a type id with that type's size (R163, R191). -/
def headerType (m : Mem) (a : Nat) : Option Nat :=
  let w := memNat m a 4
  if a % 16 = 0 && w % 2 ^ 20 ≠ 0 && typeUnits m (w / 2 ^ 20) = w % 2 ^ 20 then some (w / 2 ^ 20) else none

/-- A MOVE between two instances stands only where their types have the same TYPE_SIG in the old and the new image; one that
moves words without a header goes with the table (R192, R481; log 124). -/
def moveStands (old fresh : Mem) (e : Migration) : Bool :=
  e.kind == 1 && match headerType old e.old, headerType fresh e.new with
    | some x, some y => typeSig old x == typeSig fresh y
    | _, _ => true

/-- The MOVE entries of a migration carried out in table order. -/
def applyMoves (ms : List Migration) (m : Mem) : Mem :=
  ms.foldl (fun m e => bankCopyIn m m e.new e.old (16 * e.units)) m

/-- The instance area after the migration: MOVE targets from the old area, all else from the initial image, and the
REFRESH units from it in any case (R192, R481). -/
def migrateInst (ms : List Migration) (old fresh : Mem) : Mem :=
  let stands := ms.filter (moveStands old fresh)
  let moved := applyMoves stands old
  let kept := stands.foldl (fun m e => memCopy m moved e.new (e.new + 16 * e.units)) fresh
  (ms.filter fun e => e.kind == 2).foldl (fun m e => memCopy m fresh e.new (e.new + 16 * e.units)) kept

/-- A point keeps its index, its owning context and its direction between two configurations (R480). -/
def pointKept (old : Cfg) (p : PointRef) : Bool :=
  (cfgPoints old).any fun q => q.index == p.index && q.ctx == p.ctx && q.out == p.out

/-- The process image after an activation: kept output entries and the input entries of points known before stand until the
next phase I; every other entry takes its Reset content. -/
def keepEntries (old new : Cfg) (oldMem m : Mem) : Mem :=
  (cfgPoints new).foldl (fun m p =>
    let stays := if p.out then pointKept old p else (cfgPoints old).any fun q => q.index == p.index
    if stays then memCopy m oldMem (pointAddr p.index) (pointAddr p.index + 4) else m) m

/-- The memory of a seated lane under the new image. -/
def migrateMem (old new : Cfg) (bank oldMem : Mem) : Mem :=
  keepEntries old new oldMem (migrateInst (migrations bank) oldMem (loadMem bank oldMem))

/-! ## What a lane keeps (R135, R358, R369, R480, R482) -/

/-- A context of the new image: one that the old image had keeps its state; its cycle in progress ends; its published
values stay for the points it keeps. -/
def keepCtx (old : Cfg) (L : Lane) (x : CtxCfg) : CtxRun :=
  match tblGet L.ctxs x.num with
  | none => freshCtx
  | some c =>
    { c with busy := false, owes := false, lateNow := false, vals := [],
             pub := c.pub.filter fun e => (cfgPoints old).any fun q => q.index == e.1 && q.ctx == x.num && q.out }

/-- The contexts of the new image. -/
def keepCtxs (old new : Cfg) (L : Lane) : Tbl CtxRun :=
  ((new.ctxs.filter fun x => x.num != 0).foldl (fun t x => tblSet t x.num (keepCtx old L x)) [])

/-- The two-channel functions of the new image: changed and new entries start in PROOF_D (R358). -/
def keepFns (old new : Cfg) (L : Lane) : Tbl FnRun :=
  new.fns.foldl (fun t f => tblSet t f.fn (if old.fns.contains f then tblGetD L.fns f.fn {} else {})) []

/-- A drive's stop is in progress: SS1, and STO_WAIT after it. -/
def stopping (x : DrvRun) : Bool := x.st == .ss1 || x.st == .stoWait

/-- The drives of the new image: a stop in progress ends under the entry it began with (R369). -/
def keepDrv (old : Cfg) (L : Lane) (d : DriveCfg) : DrvRun :=
  match old.drives.find? fun e => e.drv == d.drv with
  | none => {}
  | some e =>
    let x := tblGetD L.drvs d.drv {}
    if e != d && stopping x then { x with entryCfg := x.entryCfg.or (some e) } else x

/-- A drive that the new image no longer has: its stop still ends under the entry it began with (R369). -/
def lostDrv (L : Lane) (t : Tbl DrvRun) (e : DriveCfg) : Tbl DrvRun :=
  let x := tblGetD L.drvs e.drv {}
  if (tblGet t e.drv).isNone && stopping x then tblSet t e.drv { x with entryCfg := some e } else t

/-- The drives of the new image, and those of the old one whose stop goes on. -/
def keepDrvs (old new : Cfg) (L : Lane) : Tbl DrvRun :=
  (drvList { L with cfg := old }).foldl (lostDrv L) (new.drives.foldl (fun t d => tblSet t d.drv (keepDrv old L d)) [])

/-- A lane's ACTIVE record and the seal record of the new hat (R479 step 7, R484). -/
def flipNv (r : DWord) (x : OcHdr) (nv : LaneNv) : LaneNv :=
  { setActive nv (!activeIsB nv) (activeSeq nv + 1) with
    sealOld := nv.sealRec, sealRec := nv.sealRec.map fun _ => { hat := x.toHat, round := r }, probation := true }

/-- A lane that is not seated switches banks and loads the new image (R103, R491). -/
def reloadLane (r : DWord) (x : OcHdr) (L : Lane) : Lane :=
  { loadImage { L with nv := flipNv r x L.nv, wait := none, outBuf := [] } with stn := L.stn, scrub := {} }

/-- A seated lane under the new image (R479 steps 4-7). -/
def switchLane (r : DWord) (x : OcHdr) (L0 : Lane) : Lane :=
  let L := flushStores L0
  let nv := flipNv r x L.nv
  let bank := (activeBank nv).data
  let new := parseCfg (loadMem bank []) (bankCfgBase bank)
  { L with
    nv := nv, mem := migrateMem L.cfg new bank L.mem, cfg := new, hat := x.toHat, cur := none, susp := [], wait := none,
    ctxs := keepCtxs L.cfg new L, fns := keepFns L.cfg new L, drvs := keepDrvs L.cfg new L, scrub := {},
    own := [], contribs := [], resend := [] }

/-- A lane at an activation that goes ahead; one that has not verified waits for a bank copy (R472). -/
def activateLane (s : State) (r : DWord) (x : OcHdr) (l : LaneId) (L : Lane) : Lane :=
  if L.nv.retire ≠ 0 then L
  else if L.upd.st ≠ 3 then { L with verified := false }
  else if isSeated s l then switchLane r x L
  else reloadLane r x L

/-! ## What the group keeps (R256, R307, R390, R482, R486, R491) -/

/-- A grant whose slot the new plan does not keep and which no telegram of the round before has ended (GRANT_ROOM) is revoked
by the owner now; one of a former owner is dropped (R249, R256). -/
def keepGrants (c : Cfg) (g : Group) : Group :=
  if isOwner g then revokeUnfit c g
  else { g with grants := g.grants.filter fun t => slotFits c t.seg t.slot t.len }

/-- A join that goes back to step 5 of R84 (R281, R479). -/
def joinBack (j : Join) : Join :=
  if 5 < j.step then { j with step := 5, snap := [], snapTasks := [], snapExec := {}, unsent := [], staged := [], shadowOk := true } else j

/-- The group under the new configuration: the scrub pass starts again, a join goes back to step 5. -/
def keepGroup (c : Cfg) (g0 : Group) : Group :=
  let g := keepGrants c { g0 with cfg := c }
  { g with
    scrub := { pass := g.scrub.pass + 1, latest := g.scrub.latest, nextAt := g.groupTime.toNat }
    join := g.join.map joinBack
    actAt := none }

/-- The stations whose service requests end: those whose entry or SVC_LEN the new image takes or changes (R307). -/
def droppedServices (old new : Cfg) : List Nat :=
  (old.stations.filter fun x => !new.stations.any fun y => y.addr == x.addr && y.svcLen == x.svcLen).map (·.addr)

/-- The settings of a new format: saved values erased, running values at their factory values, the event (R486). -/
def newFormat (s : State) (x : OcHdr) : State :=
  let old := s.grp.settings.format
  if x.settings = old then s
  else
    let s1 := modLanes s (liveLanes s) fun _ L =>
      { L with nv := { L.nv with set0 := {}, set1 := {}, setFormat := x.settings } }
    let s2 := modGrp s1 fun g => { g with settings := { format := x.settings } }
    settingsReset (bothHubs.foldl (fun s h => modHub s h fun H => { H with moderation := 0 }) s2) old x.settings

/-- A tile takes the new tile and channel words; latches and LOST survive (R344). -/
def rewordTile (g : Group) (t : TileId) (T : Tile) : Tile :=
  { tileFormed g t T with map := T.map, offered := T.offered, newMap := T.newMap }

/-- A joiner that has not verified fails its join (R472). -/
def unverifiedJoiner (s : State) : State :=
  match s.grp.join with
  | some j => if (lane s j.joiner).verified then s else joinFailed s 7
  | none => s

/-- A request whose channel a configuration does not have. -/
def strayRequest (c : Cfg) (a : Action) : Bool := match a.kind with
  | .request _ _ _ => (reqChan? c a).isNone
  | _ => false

/-- The requests stamped and those held over for a later cycle, as the lowest seated lane holds them (R126). -/
def waitingRequests (s : State) : List Action :=
  queuedActions s ++ ((seated s).head?).elim [] fun l => (lane s l).ctxs.flatMap fun e => e.2.held

/-- At an activation every stamped request whose channel the new image no longer has is discarded with REQUEST_DISCARDED, in the order
of stamping (R482). -/
def dropRequests (c : Cfg) (s : State) : State :=
  let keep (as : List Action) : List Action := as.filter fun a => !strayRequest c a
  let s1 := modGrp s fun g => { g with actions := keep g.actions }
  let s2 := bothHubs.foldl (fun s h => modHub s h fun H => { H with outbox := keep H.outbox }) s1
  let s3 := modLanes s2 allLanes fun _ L => { L with ctxs := L.ctxs.map fun e => (e.1, { e.2 with held := keep e.2.held }) }
  discardRequests (sortActs ((waitingRequests s).filter (strayRequest c))) s3

/-- The activation at the boundary of round r (R479 steps 3-7). -/
def activate (s0 : State) (r : DWord) (x : Session) : State :=
  let old := s0.grp.cfg
  let s := dropRequests (newCfg s0) s0
  let s1 := modLanes s allLanes fun l L => activateLane s r x.hdr l L
  let new := cfgOfFirst s1 (seated s1)
  let s2 := (droppedServices old new).foldl dropService s1
  let s3 := modSess (modGrp s2 (keepGroup new)) fun z => { z with st := .probation }
  let s4 := newFormat s3 x.hdr
  let s5 := tilePut .t1 (rewordTile s4.grp .t1) (tilePut .t0 (rewordTile s4.grp .t0) s4)
  let s6 := { s5 with mod := { s5.mod with activating := true, actFrom := s5.grp.groupTime.toNat } }
  settle (unverifiedJoiner (refreshOp s6)) 4

/-- A planned activation at the boundary that starts round r: it goes ahead or is abandoned; a round count that has passed
it abandons it with cause 4; with AT_START nothing happens here but the record of the round (R478, R488). -/
def activationAt (r : DWord) (s : State) : State :=
  match s.grp.actAt, s.grp.session with
  | some act, some x =>
    if r < act || x.st ≠ .planned then s
    else if x.hdr.atStart then
      modGrp (modLanes s (liveLanes s) fun _ L => { L with nv := { L.nv with roundHwm := max L.nv.roundHwm r.toNat } })
        fun g => { g with actAt := none }
    else if act < r then abandon s act 4
    else match actCause s x with
      | some c => abandon s act c
      | none => activate s r x
  | _, _ => s

/-- The activation cycle of some context has not ended its phase L. -/
def activationRuns (s : State) : Bool :=
  (runLanes s).any fun l => activationIn (actRound s) (lane s l)

/-- The activation ends as a cause of RECOVERY once the phase L of its cycle has ended: the record and the event (R479
steps 8 and 9, R517, R531). -/
def activationEnd (s : State) : State :=
  if !s.mod.activating || activationRuns s then s
  else
    let act := s.grp.session.elim 0 fun x => x.act
    let us := spanUs s.mod.actFrom 0 s.grp.groupTime.toNat (freeMoment s)
    let s1 := { useFree s with mod := { s.mod with activating := false } }
    refreshOp (actEvent (recoveryEnd s1 4 0 0 act us) act stOk 0)

/-- A non-vital context's cycle that would straddle the planned activation (R477). -/
def straddles (g : Group) (x : CtxCfg) (r : Nat) : Bool :=
  !x.vital && !(g.session.any fun z => z.hdr.atStart) &&
    g.actAt.any fun a => r < a.toNat && a.toNat < r + periodRounds x.period

end Sys2Proof.Machine
end

