-- ==== Sys2Proof/Machine/Status.lean ====
section
/-! DEFINITION. What the hubs take from the lanes and the lanes from the hubs between boundaries: status messages (R64, R65,
R104, R131, R304, R341, R423), stamped actions (R19, R124) and cycle marks (R120-R122). -/

namespace Sys2Proof.Machine

open Sys2Proof

/-! ## Stamped actions (R19, R124) -/

/-- STAMPED_ACTION_RECEIVED: the lanes hold what a hub has stamped; it waits for its slot. -/
def actionsReceived (h : HubId) (s : State) : State :=
  let H := hub s h
  if H.fwRunning then
    let s1 := modGrp (setHub s h { H with outbox := [] }) fun g => { g with actions := g.actions ++ H.outbox }
    modLanes s1 allLanes fun _ L => takesIn (H.outbox.map fun a => a.slot) L
  else s

/-- STAMPED_ACTION_RECEIVED (R19). -/
def execStampedActionReceived (h : HubId) (s : State) : Host.Outcome State Fault Refusal :=
  .next (whenOn s (actionsReceived h))

/-! ## Status messages (R65, R104) -/

/-- The lanes whose messages can back one of lane l (R104): the other seated ones; before any seat is filled, any other
lane; none for a lane without a seat in a group that has seats. -/
def backers (s : State) (l : LaneId) : List LaneId :=
  if (seated s).isEmpty then otherLanes l else if isSeated s l then (seated s).filter (· != l) else []

/-- Another lane's latest message of the same round says the same in one part. -/
def backed {α : Type} [DecidableEq α] (s : State) (M : Mirror) (l : LaneId) (m : StatusMsg) (f : StatusMsg → α) : Bool :=
  (backers s l).any fun k => (quadGet M.msgs k).any fun x => x.round == m.round && f x == f m

/-- The words of a table that a message brings: each one that another lane backs, and none that both no longer name. -/
def takeWords (s : State) (M : Mirror) (l : LaneId) (m : StatusMsg) (f : StatusMsg → Tbl DWord) (old : Tbl DWord) :
    Tbl DWord :=
  let new := (f m).foldl
    (fun t e => if backed s M l m (fun x => tblGet (f x) e.1) then tblSet t e.1 e.2 else t) old
  if backed s M l m (fun x => (f x).map (·.1)) then new.filter fun e => (f m).any fun x => x.1 == e.1 else new

/-- What a hub shows of the lanes after a message (R65, R104). -/
def takeMsg (s : State) (l : LaneId) (m : StatusMsg) (M0 : Mirror) : Mirror :=
  let M := { M0 with msgs := quadSet M0.msgs l (some m) }
  let a := backed s M l m fun x => (x.tiles.a, x.chans.a)
  let b := backed s M l m fun x => (x.tiles.b, x.chans.b)
  { M with
    lanes := quadSet M.lanes l m.lane
    group := if backed s M l m (·.group) then m.group else M.group
    tiles := ⟨if a then m.tiles.a else M.tiles.a, if b then m.tiles.b else M.tiles.b⟩
    chans := ⟨if a then m.chans.a else M.chans.a, if b then m.chans.b else M.chans.b⟩
    ctxs := takeWords s M l m (·.ctxs) M.ctxs
    stns := takeWords s M l m (·.stns) M.stns }

/-- The round of the latest messages a hub holds. -/
def msgRound (M : Mirror) : Option DWord :=
  (allLanes.filterMap fun k => (quadGet M.msgs k).map (·.round)).foldl
    (fun b r => match b with
      | none => some r
      | some x => some (if x < r then r else x)) none

/-- Every lane has reported in a round. -/
def allReported (M : Mirror) (r : DWord) : Bool := allLanes.all fun k => (quadGet M.msgs k).any fun m => m.round == r

/-- The status mirror updated with what the hub holds of a round, once (R423). -/
def showMirror (r : DWord) (M : Mirror) : Mirror :=
  if M.sq ≠ 0 && M.round == r then M
  else { M with shown := { lanes := M.lanes, group := M.group, tiles := M.tiles }, sq := M.sq + 2, round := r }

/-- The mirror follows once per round: with the last lane's message of it, or, where one stays silent, with the first message of
a later round, before that is taken (R423; DESIGN CHOICE, log 130). -/
def mirrorTakes (s : State) (l : LaneId) (m : StatusMsg) (M0 : Mirror) : Mirror :=
  let M1 := match msgRound M0 with
    | some r => if r < m.round then showMirror r M0 else M0
    | none => M0
  let M := takeMsg s l m M1
  if allReported M m.round then showMirror m.round M else M

/-- A hub with a lane's status message: the words it holds, OP_STATE, SAFETY_MAJOR and SEALED where another lane says the
same (R65, R104, R421). -/
def statusTaken (h : HubId) (l : LaneId) (m : StatusMsg) (s : State) : State :=
  let H := hub s h
  let M := mirrorTakes s l m H.mirror
  setHub s h { H with mirror := M, round := m.round,
                      opState := if backed s M l m (·.op) then m.op else H.opState
                      safetyMajor := if backed s M l m (·.major) then BitVec.ofNat 16 m.major else H.safetyMajor
                      isSealed := if backed s M l m (·.isSealed) then m.isSealed else H.isSealed }

/-- The words of a status message as a lane signs them (R39). -/
def statusWords (m : StatusMsg) : List DWord :=
  [m.lane, m.group, m.tiles.a, m.tiles.b, inWord (m.op + 8 * m.major)] ++ m.ctxs.map (·.2) ++ m.stns.map (·.2)

/-- A 64-bit word as two outbound words. -/
def outItems (dest : Nat) (w : DWord) : List (Nat × DWord) := [outItem dest (w.setWidth 32), outItem dest (w.extractLsb' 32 32)]

/-- STATUS_MESSAGE_RECEIVED: a lane's message to a running hub, once its window has compared equal (R41, R65). -/
def statusReceived (h : HubId) (l : LaneId) (s : State) : State :=
  if (hub s h).fwRunning then
    let m := statusMsg s l
    sendOut l ((statusWords m).flatMap (outItems (4 + hubNum h))) (statusTaken h l m) s
  else s

/-- STATUS_MESSAGE_RECEIVED (R65). -/
def execStatusMessageReceived (h : HubId) (l : LaneId) (s : State) : Host.Outcome State Fault Refusal :=
  .next (whenOn s (statusReceived h l))

/-! ## Cycle marks (R120-R122) -/

/-- The mark's instant lies in the round in progress of the context's cycle slot. -/
def markDue (s : State) (x : CtxCfg) (m : MarkCfg) : Bool :=
  let r := s.grp.round.toNat
  x.offset ≤ r && m.offUs / (100 * roundTicks s) == (r - x.offset) % periodRounds x.period

/-- A run of a mark's task has not ended. -/
def markBusy (L : Lane) (n k : Nat) : Bool :=
  (L.cur.toList ++ L.susp).any fun t => t.ctx == n && t.mark == some k

/-- The group time at the boundary that starts the cycle slot in progress of a context (R112, R205). -/
def slotNow (s : State) (x : CtxCfg) : DWord :=
  let r := s.grp.round.toNat
  s.grp.groupTime - BitVec.ofNat 64 ((r - cycleRound x (cycleIndex x r)) * roundTicks s)

/-- A mark's task (R122): the mark entry's type and instance, with the time value and the index of the cycle slot in which the
mark falls, skipped or not (R112, R181, R205). -/
def markRun (s : State) (x : CtxCfg) (k : Nat) (L : Lane) : Option (Nat × Task) :=
  (x.marks[k]?).map fun e =>
    let idx : DWord := BitVec.ofNat 64 (cycleIndex x s.grp.round.toNat)
    let c := ctxRun L x.num
    (e.1, { ctx := x.num, mark := some k, pc := BitVec.ofNat 32 (typeCode L.mem e.1),
            ib := BitVec.ofNat 32 (x.base + 16 * e.2), now := if c.cyc = idx then c.now else slotNow s x, cyc := idx })

/-- A mark's task at its instant in one lane: started with its check (R139), or skipped and counted while its last run goes
on (R122). -/
def markTask (x : CtxCfg) (k : Nat) (s : State) (l : LaneId) : State :=
  let L := lane s l
  if (ctxRun L x.num).st ≠ .running then s
  else if markBusy L x.num k then
    laneNote (setLane s l (modCtx L x.num fun c => { c with markSkips := c.markSkips + 1 })) l 11
      (leBytes 1 x.num ++ leBytes 1 k)
  else match markRun s x k L with
    | none => s
    | some (ty, t) => startCheck (setLane s l (addTask L t)) l t ty

/-- The CYCLE_MARK events of both hubs (R120, R121): context, mark and cycle index. -/
def markEvent (s : State) (x : CtxCfg) (k : Nat) : State :=
  event s [] 0x8010 (some (BitVec.ofNat 32 (x.num + 256 * k))) 0 0
    (leBytes 1 x.num ++ leBytes 1 k ++ leBytes 8 (cycleIndex x s.grp.round.toNat))

/-- CYCLE_MARK: a configured mark at its instant. The event follows bus time alone, in SAFE too (R121). Only non-vital contexts
have mark tasks (R122). -/
def cycleMark (n k : Nat) (s : State) : State :=
  match ctxCfg? s.grp.cfg n, s.grp.cfg.marks.find? fun m => m.ctx == n && m.mark == k with
  | some x, some m =>
    if s.grp.gst = .forming || !s.grp.firstBoundary || !markDue s x m then s
    else
      let s1 := if m.hasTask && !x.vital && groupRuns s.grp then (runLanes s).foldl (markTask x k) s else s
      if m.hostEvent then markEvent s1 x k else s1
  | _, _ => s

/-- CYCLE_MARK (R120). -/
def execCycleMark (ctx : Nat) (mark : Nat) (s : State) : Host.Outcome State Fault Refusal :=
  .next (whenOn s (cycleMark ctx mark))

end Sys2Proof.Machine
end

