-- ==== Sys2Proof/Machine/Round.lean ====
section
/-! DEFINITION. The round boundary: what every lane does there, in one step for the group (R115, R204, R279, R301, R305, R345,
R456, R479, R520). -/

namespace Sys2Proof.Machine

open Sys2Proof

/-! ## Round count and group time (R204, R206, R279, R522) -/

/-- Round count and group time advance (R204); at the first boundary of a new formation group time is the round count times
ROUND_TICKS anew, though R206 has it never decrease nor skip (DEDUCED, log 134); the rotation period counts from the group's first boundary; a join goes back
to step 5 where the bus's higher count is taken (R281). -/
def advance (s : State) : State :=
  let d : DWord := BitVec.ofNat 64 (roundTicks s)
  modGrp s fun g =>
    let r := newRound g
    let t := if g.firstBoundary then g.groupTime + d else r * d
    { g with round := r, groupTime := t, adoptRound := none, firstBoundary := true,
             join := if g.firstBoundary && r != g.round + 1 then g.join.map joinBack else g.join
             rotFrom := if g.firstBoundary then g.rotFrom else t.toNat }

/-- A lane records ROUND_HWM at the first boundary and after at most 65,536 rounds (R267). -/
def noteHwm (first : Bool) (r : DWord) (L : Lane) : Lane :=
  if L.journal && L.nv.retire = 0 && (first || L.nv.roundHwm + 65536 ≤ r.toNat) then
    { L with nv := { L.nv with roundHwm := r.toNat } }
  else L

/-- The counter samples of a second start anew (R456). -/
def newSecond (t0 t1 : DWord) (L : Lane) : Lane :=
  if t0.toNat / 10000 = t1.toNat / 10000 then L else { L with ctrs := { L.ctrs with samples := 0 } }

/-- The boundary's time: the group's counts, and what the lanes note of them. -/
def boundaryTime (s : State) : State :=
  let s1 := advance s
  modLanes s1 allLanes fun _ L =>
    newSecond s.grp.groupTime s1.grp.groupTime (noteHwm (!s.grp.firstBoundary) s1.grp.round L)

/-! ## Actions stamped for a round (R124, R342, R363, R412) -/

/-- An action stamped for a round boundary, service requests apart. -/
def isRoundAct (a : Action) : Bool := match a.kind with
  | .tileReset _ => true
  | .driveReset _ => true
  | .setting _ _ => true
  | .factory => true
  | _ => false

/-- DRIVE_RESET at a boundary: STO_FAULT ends when both feedbacks show 1 (R363). -/
def resetDrive (r : DWord) (d : Nat) (L : Lane) : Lane :=
  match (drvList L).find? fun e => e.drv == d with
  | none => L
  | some e =>
    let x := tblGetD L.drvs d {}
    let z := frozenOf L r
    if x.st = .stoFault && frozenBit L.cfg z e.fbA && frozenBit L.cfg z e.fbB then
      { L with drvs := tblSet L.drvs d (drvStopped (permitOf L e) x) }
    else L

/-- A stamped action takes effect at its round boundary. -/
def applyRoundAct (s : State) (a : Action) : State :=
  match a.kind with
  | .tileReset t => tileResetAt t s
  | .driveReset d => modLanes s (runLanes s) fun _ L => resetDrive s.grp.round d L
  | .setting sid v => modGrp s fun g => { g with settings := setRunning g.settings sid v }
  | .factory =>
    let s1 := modGrp s fun g => { g with settings := { format := g.settings.format } }
    writeOutcome s1 { what := .settingsErase, hub := a.hub, tag := a.tag }
  | _ => s

/-- A planned activation comes before an action stamped for the same boundary (R19). -/
def planFirst (g : Group) (a : Action) : Bool :=
  g.actAt.any fun r => r < a.slot || (r == a.slot &&
    (hubNum g.actBy.1 < hubNum a.hub || (g.actBy.1 == a.hub && g.actBy.2 < a.order)))

/-- What is stamped for the round or one passed over, in the order of R19, the activation among it. The actions of a context's
cycle follow at its phase I, under the new image (R115, R130, R479 step 6). -/
def roundActs (s : State) : State :=
  let r := s.grp.round
  let due := (sortActs (s.grp.actions.filter isRoundAct)).filter fun a => a.slot ≤ r
  let s1 := modGrp s fun g => { g with actions := g.actions.filter fun a => !(isRoundAct a && a.slot ≤ r) }
  let s2 := (due.filter fun a => !planFirst s.grp a).foldl applyRoundAct s1
  let s3 := (due.filter (planFirst s.grp)).foldl applyRoundAct (activationAt r s2)
  modGrp s3 (takeServices r)

/-! ## Station views (R289, R304, R305, R307) -/

/-- The views of stations without an entry: those that hold a grant, and those the lane has a view of from before (R287, R297,
R304). -/
def grantViews (g : Group) (L : Lane) (t : Tbl StnView) : Tbl StnView :=
  ((g.grants.map (·.addr) ++ t.map (·.1)).eraseDups.filter fun a => !L.cfg.stations.any fun y => y.addr == a).foldl
    (fun t a => tblSet t a (stnRound { addr := a } true (tblGetD L.upl a {}) (tblGetD t a {}))) t

/-- A lane's views after the round that ended, and the uplink sequences its journal keeps, each with the round count of the
last valid uplink (R298). -/
def laneViews (g : Group) (L : Lane) : Lane :=
  let L1 := viewsRound (frozenOf L g.round) g.round.toNat L
  let stn := grantViews g L L1.stn
  { L1 with stn := stn,
            nv := if L1.journal then { L1.nv with upSeq := stn.filterMap fun e => e.2.lastSeq.map fun q =>
                      (e.1, (q, g.round.toNat - e.2.sinceUp)) }
                  else L1.nv }

/-- The lanes that take in uplinks and are not halted (R55). -/
def viewers (s : State) : List LaneId := (hearing s).filter fun l => !(lane s l).dbg.halted

/-- An uplink conflict is noted in the lane's telemetry (R307). -/
def conflictNotes (old : Lane) (s : State) (l : LaneId) : State :=
  (lane s l).stn.foldl (fun s e =>
    if (tblGetD old.stn e.1 {}).conflicts < e.2.conflicts then laneNote s l 13 (leBytes 2 e.1) else s) s

/-- The STATION events of a boundary: the stations whose STATE has changed, once for the group (R305). -/
def stationEvents (s : State) : State :=
  match viewLane s with
  | none => s
  | some l => (lane s l).stn.foldl (fun s e =>
      if e.2.evented then event s [] 0x8011 (some (BitVec.ofNat 32 e.1)) 0 0 (leBytes 1 e.2.state) else s) s

/-- The grants at a boundary: one revoked ends with its EFFECTIVE_ROUND; one in effect in the round that ended counts its
rounds without an uplink (R248, R249). -/
def grantSilence (s : State) : State :=
  match viewLane s with
  | none => s
  | some l => modGrp s fun g => { g with grants :=
      (g.grants.filter fun t => t.until_.all fun u => g.round < u).map fun t =>
        if (tblGet (lane s l).upl t.addr).isSome then { t with silent := 0 }
        else if t.since < g.round then { t with silent := t.silent + 1 } else t }

/-- The views of every lane that hears the hubs, with their notes and events. -/
def boundaryViews (s : State) : State :=
  let s1 := modLanes s (viewers s) fun _ L => laneViews s.grp L
  let s2 := (viewers s).foldl (fun t l => conflictNotes (lane s l) t l) s1
  grantSilence (stationEvents s2)

/-! ## Functions and drives (R345, R354, R363) -/

/-- The functions and drives of every lane that runs contexts, from `t0` to the group time now, with their events. -/
def boundarySafety (t0 d : Nat) (s : State) : State :=
  let ls := if groupRuns s.grp then runLanes s else []
  let s1 := modLanes s ls fun _ L => safetyRound (frozenOf L s.grp.round) s.grp.round t0 s.grp.groupTime.toNat d L
  match ls with
  | [] => s1
  | l :: _ => drvEvents (fnFaultEvents s1 (lane s1 l)) (lane s l) (lane s1 l)

/-- Group time at the boundary that starts next (R204). -/
def nextTime (s : State) : Nat := (advance s).grp.groupTime.toNat

/-- Why a drive leaves its state at the boundary that starts next, as a DRIVE_* command names it (R363): 1 standstill, 3 T_MAX and
4 speed lost in SS1; 5 the feedback in RUN or STO_WAIT, which at its time either shows what it should or does not. -/
def drvWhy (L : Lane) (z : Frozen) (now d : Nat) (e : DriveCfg) (x : DrvRun) : Option Nat :=
  match x.st with
  | .ss1 =>
    let v := speedCount L.cfg z e
    if now - x.t0 = 0 then none else ss1Cause e v (now - x.t0) d (ss1Counts e v d x)
  | .run => if (drvRound L z now d e x).st = .stoFault then some 5 else none
  | .stoWait => if (drvRound L z now d e x).st = .stoWait then none else some 5
  | _ => none

/-- A drive evaluated for the boundary that starts next, where it leaves its state there for one reason: the boundary then finds it
moved (R345, R363). -/
def drvAhead (s : State) (drv why : Nat) (L : Lane) : Lane :=
  match (drvList L).find? fun e => e.drv == drv with
  | none => L
  | some e =>
    let x := tblGetD L.drvs drv {}
    let z := frozenOf L (nextRound s)
    if x.moved != some (nextRound s) && drvWhy L z (nextTime s) (roundTicks s) e x == some why then
      let y := drvRound L z (nextTime s) (roundTicks s) e x
      { L with drvs := tblSet L.drvs drv { y with moved := some (nextRound s) } }
    else L

/-- A DRIVE_* command at a boundary, before the boundary itself: the lanes that run contexts move the drive, with its event (R345,
R363; DESIGN CHOICE, log 142). -/
def takeDrive (drv why : Nat) (s : State) : State :=
  match if groupRuns s.grp && s.grp.roundFixed then runLanes s else [] with
  | [] => s
  | l :: ls =>
    let s1 := modLanes s (l :: ls) fun _ L => drvAhead s drv why L
    drvEvents s1 (lane s l) (lane s1 l)

/-- DRIVE_STANDSTILL (R363). -/
def execDriveStandstill (drv : Nat) (s : State) : Host.Outcome State Fault Refusal := .next (whenOn s (takeDrive drv 1))

/-- DRIVE_T_MAX (R363). -/
def execDriveTMax (drv : Nat) (s : State) : Host.Outcome State Fault Refusal := .next (whenOn s (takeDrive drv 3))

/-- DRIVE_SPEED_LOST (R363). -/
def execDriveSpeedLost (drv : Nat) (s : State) : Host.Outcome State Fault Refusal := .next (whenOn s (takeDrive drv 4))

/-- DRIVE_FB_TIMEOUT (R363). -/
def execDriveFbTimeout (drv : Nat) (s : State) : Host.Outcome State Fault Refusal := .next (whenOn s (takeDrive drv 5))

/-- A function evaluated for the boundary that starts next, where its samples there bring c to m (R353): the boundary then finds it
evaluated. -/
def fnAhead (s : State) (fn : Nat) (L : Lane) : Lane :=
  match L.cfg.fns.find? fun f => f.fn == fn with
  | none => L
  | some f =>
    let x := tblGetD L.fns fn {}
    let y := fnRound L.cfg (frozenOf L (nextRound s)) f s.grp.groupTime.toNat (roundTicks s) x
    if x.moved != some (nextRound s) && 0 < y.entered then
      { L with fns := tblSet L.fns fn { y with moved := some (nextRound s) } }
    else L

/-- The FN_FAULT events of one function evaluated ahead (R354). -/
def fnAheadEvents (fn : Nat) (old new : Lane) (s : State) : State :=
  if old.fns = new.fns then s
  else match new.cfg.fns.find? fun f => f.fn == fn with
    | some f => fnFaultEvents s { new with cfg := { new.cfg with fns := [f] } }
    | none => s

/-- DISCREPANCY_LIMIT at a boundary, before the boundary itself: the samples of the round that ends bring a function into FAULT
(R353, R354; DESIGN CHOICE, log 142). -/
def discrepancy (fn : Nat) (s : State) : State :=
  match if groupRuns s.grp && s.grp.roundFixed then runLanes s else [] with
  | [] => s
  | l :: ls =>
    let s1 := modLanes s (l :: ls) fun _ L => fnAhead s fn L
    fnAheadEvents fn (lane s l) (lane s1 l) s1

/-- DISCREPANCY_LIMIT (R353). -/
def execDiscrepancyLimit (fn : Nat) (s : State) : Host.Outcome State Fault Refusal := .next (whenOn s (discrepancy fn))

/-! ## First vital cycle (R113, R358, R516) -/

/-- Some vital context starts a cycle at a round; without any, every round counts (R113). -/
def firstVitalRound (c : Cfg) (r : Nat) : Bool :=
  let vs := c.ctxs.filter fun x => x.vital && x.present && x.num != 0
  vs.isEmpty || vs.any fun x => startsAt x r

/-- Every two-channel function of a lane in PROOF_D (R358). -/
def allToProof (L : Lane) : Lane :=
  { L with fns := L.cfg.fns.foldl (fun t f => tblSet t f.fn (fnProof (tblGetD t f.fn {}))) L.fns }

/-- Every context that has not run since the start is RUNNING from the first vital cycle on (R129), with its event. -/
def startContexts (s : State) : State :=
  let new := ((runLanes s).head?).elim [] fun l => (lane s l).ctxs.filter fun e => e.2.fresh
  let s1 := modLanes s allLanes fun _ L =>
    { L with ctxs := L.ctxs.map fun e => (e.1, if e.2.fresh then { e.2 with st := .running, fresh := false } else e.2) }
  new.foldl (fun s e => ctxEvent s e.1 ctxCauseState (ctxStCode .running)) s1

/-- The first vital cycle after a start: the functions are in PROOF_D, and the module leaves START-UP (R358, R516). The time
to SERVICE in the START record is free (log 61). -/
def firstVitalCycle (s : State) : State :=
  if s.grp.firstVital || !firstVitalRound s.grp.cfg s.grp.round.toNat then s
  else
    let s1 := modLanes (modGrp s fun g => { g with firstVital := true }) allLanes fun _ L => allToProof L
    if s.mod.op = .startUp then
      refreshOp (startDone (useFree { s1 with mod := { s1.mod with op := .service } })
        ((Config.freeWord s.free).toNat % 65536))
    else s1

/-- The first vital cycle, the contexts RUNNING from it on, and the proving of comparators (R78, R113, R129). -/
def vitalBoundary (s : State) : State :=
  let s1 := firstVitalCycle s
  let s2 := if s1.grp.firstVital then startContexts s1 else s1
  if vitalStartsAt s2.grp.cfg s2.grp.round.toNat then provingRota s2 else s2

/-! ## Phase I (R115, R124, R133, R137, R477) -/

/-- The actions stamped for a cycle of a context or one passed over. -/
def cycleActs (g : Group) (n idx : Nat) : List Action :=
  g.actions.filter fun a => actCtx a.kind == some n && a.slot.toNat ≤ idx

/-- The CHANGE_REFUSED and REQUEST_DISCARDED events of a phase I (R133, R137, R482). -/
def phaseEvents (n : Nat) (p : PhaseRes) (s : State) : State :=
  let s1 := p.refused.foldl (fun s a => event s [reportHub s a.hub a.tag] 0x8005 none a.tag 0 (leBytes 1 n)) s
  discardRequests p.discarded s1

/-- The CONTEXT event of a state change at phase I, once for the group (R129, R411). -/
def stateEvent (n : Nat) (old new : Lane) (s : State) : State :=
  if (ctxRun old n).st = (ctxRun new n).st then s else ctxEvent s n ctxCauseState (ctxStCode (ctxRun new n).st)

/-- The checks at the start of the cyclic task of a cycle, in the lanes that have started it (R139). -/
def startChecks (x : CtxCfg) (idx : DWord) (s : State) : State :=
  (runLanes s).foldl (fun s l =>
    let L := lane s l
    match (L.cur.toList ++ L.susp).find? fun t => t.ctx == x.num && t.mark.isNone && t.cyc == idx with
    | some t => startCheck s l t x.rootType
    | none => s) s

/-- Phase I of a context in every lane that runs contexts. -/
def contextStart (s : State) (x : CtxCfg) : State :=
  let r := s.grp.round
  let idx := cycleIndex x r.toNat
  let acts := cycleActs s.grp x.num idx
  let cut := straddles s.grp x r.toNat
  let run (L : Lane) : PhaseRes := phaseI (frozenOf L r) x (BitVec.ofNat 64 idx) s.grp.groupTime cut acts L
  match runLanes s with
  | [] => s
  | l :: ls =>
    let s1 := modLanes s (l :: ls) fun _ L => (run L).lane
    let s2 := modGrp s1 fun g => { g with actions := g.actions.filter fun a => !acts.contains a }
    startChecks x (BitVec.ofNat 64 idx) (phaseEvents x.num (run (lane s l)) (stateEvent x.num (lane s l) (lane s1 l) s2))

/-- Phase I of every context that starts a cycle at the boundary, in the order of their numbers. -/
def contextStarts (s : State) : State :=
  (s.grp.cfg.ctxs.filter fun x => x.present && x.num != 0 && startsAt x s.grp.round.toNat).foldl contextStart s

/-! ## ROUND_BOUNDARY -/

/-- A message that serves a later round. -/
def keepsOver : StraitMsg → Bool
  | .contribution _ _ => true
  | .announce _ => true
  | .newHat _ _ => true
  | _ => false

/-- What ends with a round: messages, measurements, the uplinks frozen; the lanes that run are awake (R208, R492). -/
def roundCleared (s : State) : State :=
  let s1 := modGrp s fun g => { ownerRound g with transit := g.transit.filter keepsOver }
  let s2 := markBoundary (modLanes s1 allLanes fun _ L => { L with upl := [] })
  modLanes s2 (runLanes s2) fun _ L => { L with power := .active }

/-- Joins, reverts and rotations at the boundary (R84, R87, R97, R103). -/
def boundaryJoins (s : State) : State := retryMoves (joinBoundary s.grp.round (shadowEnd s.grp.round s))

/-- The boundary of a running group. -/
def runBoundary (s : State) : State :=
  let d := roundTicks s
  let s1 := updateRound (boundaryTime s)
  let s3 := takeResponses (boundaryViews (roundActs (activationEnd s1)))
  let s4 := boundarySafety s.grp.groupTime.toNat d (scrubCompare s3)
  let s5 := boundaryJoins (stageExec s (allLanes.foldl oscSwitch s4))
  let s6 := if groupRuns s5.grp then stageExec s5 (contextStarts (vitalBoundary s5)) else s5
  tileSync .t1 (tileSync .t0 (roundCleared s6))

/-- The boundary of a group that is forming again or in SAFE: time goes on, stamped settings take effect, a planned activation
is abandoned, and uplinks are counted (R206, R298, R412, R491). -/
def quietBoundary (s : State) : State :=
  let s1 := updateRound (boundaryTime s)
  roundCleared (allLanes.foldl oscSwitch (boundaryViews (roundActs s1)))

/-- ROUND_BOUNDARY: the next round starts once the round count is fixed (R115, R522). -/
def roundBoundary (s : State) : State :=
  if !s.grp.roundFixed then s else if groupRuns s.grp then runBoundary s else quietBoundary s

/-- ROUND_BOUNDARY (R115). -/
def execRoundBoundary (s : State) : Host.Outcome State Fault Refusal := .next (whenOn s roundBoundary)

end Sys2Proof.Machine
end

