-- ==== Sys2Proof/Machine/Dispatch.lean ====
section
/-! DEFINITION. The meaning of every command: one arm per row of the table. -/

namespace Sys2Proof.Machine

open Sys2Proof

/-- What a command does to everything but the queue. -/
def exec (i : Instr) (s : State) : Host.Outcome State Fault Refusal :=
  match i with
  | .powerGood benchN rails tileCal => Sys2Proof.Machine.execPowerGood benchN rails tileCal s
  | .powerLoss us => Sys2Proof.Machine.execPowerLoss us s
  | .pfailWarning us => Sys2Proof.Machine.execPfailWarning us s
  | .journalReopen => Sys2Proof.Machine.execJournalReopen s
  | .supplyExcursion l rail mv ns => Sys2Proof.Machine.execSupplyExcursion l rail mv ns s
  | .supplyRecovery l => Sys2Proof.Machine.execSupplyRecovery l s
  | .thermalAlert die tempC => Sys2Proof.Machine.execThermalAlert die tempC s
  | .hubFirmwareLoaded h flashOk => Sys2Proof.Machine.execHubFirmwareLoaded h flashOk s
  | .imageVote => Sys2Proof.Machine.execImageVote s
  | .imageLoadComplete l => Sys2Proof.Machine.execImageLoadComplete l s
  | .groupFormation ms => Sys2Proof.Machine.execGroupFormation ms s
  | .roundCountTimeout => Sys2Proof.Machine.execRoundCountTimeout s
  | .roundBoundary => Sys2Proof.Machine.execRoundBoundary s
  | .boundaryOffsetFence l => Sys2Proof.Machine.execBoundaryOffsetFence l s
  | .outputPoint ctx => Sys2Proof.Machine.execOutputPoint ctx s
  | .downlinkBuild => Sys2Proof.Machine.execDownlinkBuild s
  | .cycleMark ctx mark => Sys2Proof.Machine.execCycleMark ctx mark s
  | .signatureWindowClose l kFault injectedSeen => Sys2Proof.Machine.execSignatureWindowClose l kFault injectedSeen s
  | .splitTaskCheckpoint l task => Sys2Proof.Machine.execSplitTaskCheckpoint l task s
  | .splitDropTimeout l => Sys2Proof.Machine.execSplitDropTimeout l s
  | .splitEntry l march work => Sys2Proof.Machine.execSplitEntry l march work s
  | .splitTaskStop l task addr write => Sys2Proof.Machine.execSplitTaskStop l task addr write s
  | .selfTestComplete l res => Sys2Proof.Machine.execSelfTestComplete l res s
  | .selfTestResultTimeout l core => Sys2Proof.Machine.execSelfTestResultTimeout l core s
  | .quickTestComplete l pass ms => Sys2Proof.Machine.execQuickTestComplete l pass ms s
  | .joinCopyComplete => Sys2Proof.Machine.execJoinCopyComplete s
  | .stagedStoreResume l block => Sys2Proof.Machine.execStagedStoreResume l block s
  | .catchUpComplete => Sys2Proof.Machine.execCatchUpComplete s
  | .catchUpDeadline => Sys2Proof.Machine.execCatchUpDeadline s
  | .revertHoldoffExpiry l => Sys2Proof.Machine.execRevertHoldoffExpiry l s
  | .rotationDue => Sys2Proof.Machine.execRotationDue s
  | .contributionReceived l cb relayed => Sys2Proof.Machine.execContributionReceived l cb relayed s
  | .contributionRetryTimeout l ctx cyc seat => Sys2Proof.Machine.execContributionRetryTimeout l ctx cyc seat s
  | .comparisonDeadline l ctx cyc => Sys2Proof.Machine.execComparisonDeadline l ctx cyc s
  | .accusationReceived l sender named timeBase => Sys2Proof.Machine.execAccusationReceived l sender named timeBase s
  | .fenceMessageReceived l sender => Sys2Proof.Machine.execFenceMessageReceived l sender s
  | .joinAnnounceReceived joiner => Sys2Proof.Machine.execJoinAnnounceReceived joiner s
  | .straitLinkFail a b => Sys2Proof.Machine.execStraitLinkFail a b s
  | .comparatorProving l reported share stationOk => Sys2Proof.Machine.execComparatorProving l reported share stationOk s
  | .paceMeasurement l active probeOps probeTicks => Sys2Proof.Machine.execPaceMeasurement l active probeOps probeTicks s
  | .tbCompensation l tempC => Sys2Proof.Machine.execTbCompensation l tempC s
  | .boundaryMarkReceived l src m0 m1 offset => Sys2Proof.Machine.execBoundaryMarkReceived l src m0 m1 offset s
  | .timeMeasurementReceived l sender ns => Sys2Proof.Machine.execTimeMeasurementReceived l sender ns s
  | .timeComparison l => Sys2Proof.Machine.execTimeComparison l s
  | .oscillatorCheck l rate0 rate1 => Sys2Proof.Machine.execOscillatorCheck l rate0 rate1 s
  | .scrubStep badBlocks => Sys2Proof.Machine.execScrubStep badBlocks s
  | .scrubResultReceived l sender result => Sys2Proof.Machine.execScrubResultReceived l sender result s
  | .scrubRepairReceived l => Sys2Proof.Machine.execScrubRepairReceived l s
  | .flashImageHash l => Sys2Proof.Machine.execFlashImageHash l s
  | .flashBlockFailure l block why => Sys2Proof.Machine.execFlashBlockFailure l block why s
  | .powerStateEntry l te => Sys2Proof.Machine.execPowerStateEntry l te s
  | .laneWake l => Sys2Proof.Machine.execLaneWake l s
  | .hubClockGate h blk gate => Sys2Proof.Machine.execHubClockGate h blk gate s
  | .thresholdCalibration t offMv => Sys2Proof.Machine.execThresholdCalibration t offMv s
  | .lanePeriodicRecord l m => Sys2Proof.Machine.execLanePeriodicRecord l m s
  | .telemetryIntervalRestore l => Sys2Proof.Machine.execTelemetryIntervalRestore l s
  | .wearRecord l w => Sys2Proof.Machine.execWearRecord l w s
  | .hubPeriodicRecord h m => Sys2Proof.Machine.execHubPeriodicRecord h m s
  | .counterOverflow src n op => Sys2Proof.Machine.execCounterOverflow src n op s
  | .valuzScanComplete eng ch data hostOk => Sys2Proof.Machine.execValuzScanComplete eng ch data hostOk s
  | .blockApplied l => Sys2Proof.Machine.execBlockApplied l s
  | .bankCopyComplete l src => Sys2Proof.Machine.execBankCopyComplete l src s
  | .updateVerifyComplete => Sys2Proof.Machine.execUpdateVerifyComplete s
  | .hubFwRestart h => Sys2Proof.Machine.execHubFwRestart h s
  | .hubFwRestartTimeout => Sys2Proof.Machine.execHubFwRestartTimeout s
  | .stampedActionReceived h => Sys2Proof.Machine.execStampedActionReceived h s
  | .statusMessageReceived h l => Sys2Proof.Machine.execStatusMessageReceived h l s
  | .hubRoundBoundary p atNs => Sys2Proof.Machine.execHubRoundBoundary p atNs s
  | .nodeIntegrated p => Sys2Proof.Machine.execNodeIntegrated p s
  | .leaveIntegration p => Sys2Proof.Machine.execLeaveIntegration p s
  | .guardianLocked p => Sys2Proof.Machine.execGuardianLocked p s
  | .guardianListen p => Sys2Proof.Machine.execGuardianListen p s
  | .guardianWindowOpen p slot => Sys2Proof.Machine.execGuardianWindowOpen p slot s
  | .guardianWindowClose p slot => Sys2Proof.Machine.execGuardianWindowClose p slot s
  | .slotStart p at_ => Sys2Proof.Machine.execSlotStart p at_ s
  | .listenTimeout p => Sys2Proof.Machine.execListenTimeout p s
  | .coldStartReceived p f => Sys2Proof.Machine.execColdStartReceived p f s
  | .syncReceived p f => Sys2Proof.Machine.execSyncReceived p f s
  | .uplinkReceived p f => Sys2Proof.Machine.execUplinkReceived p f s
  | .claimReceived p f => Sys2Proof.Machine.execClaimReceived p f s
  | .downlinkFrameReceived p f => Sys2Proof.Machine.execDownlinkFrameReceived p f s
  | .scheduleStandinTakeover => Sys2Proof.Machine.execScheduleStandinTakeover s
  | .spareReleaseTimeout addr => Sys2Proof.Machine.execSpareReleaseTimeout addr s
  | .uplinkSequenceClear addr => Sys2Proof.Machine.execUplinkSequenceClear addr s
  | .serviceTimeout addr => Sys2Proof.Machine.execServiceTimeout addr s
  | .gateCommandFrame t f => Sys2Proof.Machine.execGateCommandFrame t f s
  | .tileStrobe t seat => Sys2Proof.Machine.execTileStrobe t seat s
  | .snapshotReceived l t => Sys2Proof.Machine.execSnapshotReceived l t s
  | .tileSnapshotTimeout l t => Sys2Proof.Machine.execTileSnapshotTimeout l t s
  | .debounceChange t ch level off5us => Sys2Proof.Machine.execDebounceChange t ch level off5us s
  | .chatterWindowEnd t ch => Sys2Proof.Machine.execChatterWindowEnd t ch s
  | .countingPulse t ch edge => Sys2Proof.Machine.execCountingPulse t ch edge s
  | .testPulseStart t ch => Sys2Proof.Machine.execTestPulseStart t ch s
  | .testPulseEnd t ch g => Sys2Proof.Machine.execTestPulseEnd t ch g s
  | .outputOverload t ch => Sys2Proof.Machine.execOutputOverload t ch s
  | .mittenSourceOverload t ch => Sys2Proof.Machine.execMittenSourceOverload t ch s
  | .cuffOvercurrent t g => Sys2Proof.Machine.execCuffOvercurrent t g s
  | .outputUnswitchable t ch nodeMv pairMa => Sys2Proof.Machine.execOutputUnswitchable t ch nodeMv pairMa s
  | .cuffReadbackCheck t g showsOpen => Sys2Proof.Machine.execCuffReadbackCheck t g showsOpen s
  | .lplusSag t g mv => Sys2Proof.Machine.execLplusSag t g mv s
  | .couplerFailure t ch cp => Sys2Proof.Machine.execCouplerFailure t ch cp s
  | .couplerSpareSwitched t ch => Sys2Proof.Machine.execCouplerSpareSwitched t ch s
  | .seatSilent t seat => Sys2Proof.Machine.execSeatSilent t seat s
  | .discrepancyLimit fn => Sys2Proof.Machine.execDiscrepancyLimit fn s
  | .driveStandstill drv => Sys2Proof.Machine.execDriveStandstill drv s
  | .driveTMax drv => Sys2Proof.Machine.execDriveTMax drv s
  | .driveFbTimeout drv => Sys2Proof.Machine.execDriveFbTimeout drv s
  | .driveSpeedLost drv => Sys2Proof.Machine.execDriveSpeedLost drv s
  | .hubLost h => Sys2Proof.Machine.execHubLost h s
  | .adoptionComplete h => Sys2Proof.Machine.execAdoptionComplete h s
  | .pcieLinkDownTimeout h => Sys2Proof.Machine.execPcieLinkDownTimeout h s
  | .functionLevelReset h => Sys2Proof.Machine.execFunctionLevelReset h s
  | .perst h degraded => Sys2Proof.Machine.execPerst h degraded s
  | .dmaError h what => Sys2Proof.Machine.execDmaError h what s
  | .moderationHoldEnd h vec => Sys2Proof.Machine.execModerationHoldEnd h vec s
  | .commandDoorbell h v unknown => Sys2Proof.Machine.execCommandDoorbell h v unknown s
  | .rplConsWrite h v => Sys2Proof.Machine.execRplConsWrite h v s
  | .sevConsWrite h v => Sys2Proof.Machine.execSevConsWrite h v s
  | .evchConsWrite h e v => Sys2Proof.Machine.execEvchConsWrite h e v s
  | .peerEvchConsWrite h e v => Sys2Proof.Machine.execPeerEvchConsWrite h e v s
  | .tlmConsWrite h e v => Sys2Proof.Machine.execTlmConsWrite h e v s
  | .ringEnable h => Sys2Proof.Machine.execRingEnable h s
  | .ringDisable h => Sys2Proof.Machine.execRingDisable h s
  | .cntClear h => Sys2Proof.Machine.execCntClear h s
  | .valuzGo eng ch => Sys2Proof.Machine.execValuzGo eng ch s
  | .valuzAbort eng ch => Sys2Proof.Machine.execValuzAbort eng ch s
  | .registerWrite h off v => Sys2Proof.Machine.execRegisterWrite h off v s
  | .nop hd => Sys2Proof.Machine.execNop hd s
  | .identity hd => Sys2Proof.Machine.execIdentity hd s
  | .laneStatus hd => Sys2Proof.Machine.execLaneStatus hd s
  | .groupStatus hd => Sys2Proof.Machine.execGroupStatus hd s
  | .tileStatus hd tile => Sys2Proof.Machine.execTileStatus hd tile s
  | .contextStatus hd ctx => Sys2Proof.Machine.execContextStatus hd ctx s
  | .stationStatus hd => Sys2Proof.Machine.execStationStatus hd s
  | .channelCreate hd cb => Sys2Proof.Machine.execChannelCreate hd cb s
  | .channelDestroy hd => Sys2Proof.Machine.execChannelDestroy hd s
  | .eventSubscribe hd code sel => Sys2Proof.Machine.execEventSubscribe hd code sel s
  | .eventUnsubscribe hd code sel => Sys2Proof.Machine.execEventUnsubscribe hd code sel s
  | .contextStart hd ctx => Sys2Proof.Machine.execContextStart hd ctx s
  | .contextStop hd ctx => Sys2Proof.Machine.execContextStop hd ctx s
  | .contextRestart hd ctx => Sys2Proof.Machine.execContextRestart hd ctx s
  | .valueChange hd ctx n chg => Sys2Proof.Machine.execValueChange hd ctx n chg s
  | .valueRead hd ctx n idx => Sys2Proof.Machine.execValueRead hd ctx n idx s
  | .updateOpen hd hdr => Sys2Proof.Machine.execUpdateOpen hd hdr s
  | .updateBlock hd no src data => Sys2Proof.Machine.execUpdateBlock hd no src data s
  | .updateVerify hd => Sys2Proof.Machine.execUpdateVerify hd s
  | .updatePlan hd act => Sys2Proof.Machine.execUpdatePlan hd act s
  | .updateConfirm hd => Sys2Proof.Machine.execUpdateConfirm hd s
  | .updateAbort hd => Sys2Proof.Machine.execUpdateAbort hd s
  | .updateStatus hd => Sys2Proof.Machine.execUpdateStatus hd s
  | .counterConfig hd item w0 w1 => Sys2Proof.Machine.execCounterConfig hd item w0 w1 s
  | .counterRead hd before after => Sys2Proof.Machine.execCounterRead hd before after s
  | .counterClear hd before after => Sys2Proof.Machine.execCounterClear hd before after s
  | .telemetryStart hd period => Sys2Proof.Machine.execTelemetryStart hd period s
  | .telemetryStop hd => Sys2Proof.Machine.execTelemetryStop hd s
  | .request hd payload => Sys2Proof.Machine.execRequest hd payload s
  | .serviceRead hd param len => Sys2Proof.Machine.execServiceRead hd param len s
  | .serviceWrite hd param data => Sys2Proof.Machine.execServiceWrite hd param data s
  | .rotateNow hd => Sys2Proof.Machine.execRotateNow hd s
  | .laneSelfTest hd lane => Sys2Proof.Machine.execLaneSelfTest hd lane s
  | .hatConfirm hd hat => Sys2Proof.Machine.execHatConfirm hd hat s
  | .groupRestart hd => Sys2Proof.Machine.execGroupRestart hd s
  | .tileReset hd tile => Sys2Proof.Machine.execTileReset hd tile s
  | .driveReset hd drv => Sys2Proof.Machine.execDriveReset hd drv s
  | .settingGet hd sid => Sys2Proof.Machine.execSettingGet hd sid s
  | .settingSet hd sid val => Sys2Proof.Machine.execSettingSet hd sid val s
  | .settingsSave hd => Sys2Proof.Machine.execSettingsSave hd s
  | .settingsFactory hd mode => Sys2Proof.Machine.execSettingsFactory hd mode s
  | .add l rd rs1 rs2 => Sys2Proof.Machine.execAdd l rd rs1 rs2 s
  | .sub l rd rs1 rs2 => Sys2Proof.Machine.execSub l rd rs1 rs2 s
  | .mul l rd rs1 rs2 => Sys2Proof.Machine.execMul l rd rs1 rs2 s
  | .div l rd rs1 rs2 => Sys2Proof.Machine.execDiv l rd rs1 rs2 s
  | .mod l rd rs1 rs2 => Sys2Proof.Machine.execMod l rd rs1 rs2 s
  | .min l rd rs1 rs2 => Sys2Proof.Machine.execMin l rd rs1 rs2 s
  | .max l rd rs1 rs2 => Sys2Proof.Machine.execMax l rd rs1 rs2 s
  | .abs l rd rs1 => Sys2Proof.Machine.execAbs l rd rs1 s
  | .and l rd rs1 rs2 => Sys2Proof.Machine.execAnd l rd rs1 rs2 s
  | .or l rd rs1 rs2 => Sys2Proof.Machine.execOr l rd rs1 rs2 s
  | .xor l rd rs1 rs2 => Sys2Proof.Machine.execXor l rd rs1 rs2 s
  | .andn l rd rs1 rs2 => Sys2Proof.Machine.execAndn l rd rs1 rs2 s
  | .shl l rd rs1 rs2 => Sys2Proof.Machine.execShl l rd rs1 rs2 s
  | .shr l rd rs1 rs2 => Sys2Proof.Machine.execShr l rd rs1 rs2 s
  | .sar l rd rs1 rs2 => Sys2Proof.Machine.execSar l rd rs1 rs2 s
  | .seq l rd rs1 rs2 => Sys2Proof.Machine.execSeq l rd rs1 rs2 s
  | .sne l rd rs1 rs2 => Sys2Proof.Machine.execSne l rd rs1 rs2 s
  | .slt l rd rs1 rs2 => Sys2Proof.Machine.execSlt l rd rs1 rs2 s
  | .sltu l rd rs1 rs2 => Sys2Proof.Machine.execSltu l rd rs1 rs2 s
  | .sge l rd rs1 rs2 => Sys2Proof.Machine.execSge l rd rs1 rs2 s
  | .sgeu l rd rs1 rs2 => Sys2Proof.Machine.execSgeu l rd rs1 rs2 s
  | .addi l rd rs1 imm => Sys2Proof.Machine.execAddi l rd rs1 imm s
  | .andi l rd rs1 imm => Sys2Proof.Machine.execAndi l rd rs1 imm s
  | .ori l rd rs1 imm => Sys2Proof.Machine.execOri l rd rs1 imm s
  | .xori l rd rs1 imm => Sys2Proof.Machine.execXori l rd rs1 imm s
  | .shli l rd rs1 imm => Sys2Proof.Machine.execShli l rd rs1 imm s
  | .shri l rd rs1 imm => Sys2Proof.Machine.execShri l rd rs1 imm s
  | .sari l rd rs1 imm => Sys2Proof.Machine.execSari l rd rs1 imm s
  | .slti l rd rs1 imm => Sys2Proof.Machine.execSlti l rd rs1 imm s
  | .sltiu l rd rs1 imm => Sys2Proof.Machine.execSltiu l rd rs1 imm s
  | .seqi l rd rs1 imm => Sys2Proof.Machine.execSeqi l rd rs1 imm s
  | .mini l rd rs1 imm => Sys2Proof.Machine.execMini l rd rs1 imm s
  | .maxi l rd rs1 imm => Sys2Proof.Machine.execMaxi l rd rs1 imm s
  | .lui l rd imm => Sys2Proof.Machine.execLui l rd imm s
  | .li l rd imm => Sys2Proof.Machine.execLi l rd imm s
  | .ld l ibBase rd rs1 imm => Sys2Proof.Machine.execLd l ibBase rd rs1 imm s
  | .ldh l ibBase rd rs1 imm => Sys2Proof.Machine.execLdh l ibBase rd rs1 imm s
  | .ldhu l ibBase rd rs1 imm => Sys2Proof.Machine.execLdhu l ibBase rd rs1 imm s
  | .ldb l ibBase rd rs1 imm => Sys2Proof.Machine.execLdb l ibBase rd rs1 imm s
  | .ldbu l ibBase rd rs1 imm => Sys2Proof.Machine.execLdbu l ibBase rd rs1 imm s
  | .st l ibBase rs rs1 imm => Sys2Proof.Machine.execSt l ibBase rs rs1 imm s
  | .sth l ibBase rs rs1 imm => Sys2Proof.Machine.execSth l ibBase rs rs1 imm s
  | .stb l ibBase rs rs1 imm => Sys2Proof.Machine.execStb l ibBase rs rs1 imm s
  | .beq l rs1 rs2 imm => Sys2Proof.Machine.execBeq l rs1 rs2 imm s
  | .bne l rs1 rs2 imm => Sys2Proof.Machine.execBne l rs1 rs2 imm s
  | .blt l rs1 rs2 imm => Sys2Proof.Machine.execBlt l rs1 rs2 imm s
  | .bge l rs1 rs2 imm => Sys2Proof.Machine.execBge l rs1 rs2 imm s
  | .bltu l rs1 rs2 imm => Sys2Proof.Machine.execBltu l rs1 rs2 imm s
  | .bgeu l rs1 rs2 imm => Sys2Proof.Machine.execBgeu l rs1 rs2 imm s
  | .jmp l imm => Sys2Proof.Machine.execJmp l imm s
  | .jsr l imm => Sys2Proof.Machine.execJsr l imm s
  | .icall l ty off => Sys2Proof.Machine.execIcall l ty off s
  | .icallr l rs1 rs2 => Sys2Proof.Machine.execIcallr l rs1 rs2 s
  | .ret l => Sys2Proof.Machine.execRet l s
  | .movib l rd => Sys2Proof.Machine.execMovib l rd s
  | .pld l rd pt sel => Sys2Proof.Machine.execPld l rd pt sel s
  | .pldx l rd rs1 sel => Sys2Proof.Machine.execPldx l rd rs1 sel s
  | .pst l rs pt sel => Sys2Proof.Machine.execPst l rs pt sel s
  | .pstx l rs1 rs2 sel => Sys2Proof.Machine.execPstx l rs1 rs2 sel s
  | .ton l rd rs1 imm => Sys2Proof.Machine.execTon l rd rs1 imm s
  | .tof l rd rs1 imm => Sys2Proof.Machine.execTof l rd rs1 imm s
  | .tp l rd rs1 imm => Sys2Proof.Machine.execTp l rd rs1 imm s
  | .tet l rd imm => Sys2Proof.Machine.execTet l rd imm s
  | .ctu l rd rs1 imm => Sys2Proof.Machine.execCtu l rd rs1 imm s
  | .ctd l rd rs1 imm => Sys2Proof.Machine.execCtd l rd rs1 imm s
  | .ctud l rd rs1 imm => Sys2Proof.Machine.execCtud l rd rs1 imm s
  | .rtrg l rd rs1 imm => Sys2Proof.Machine.execRtrg l rd rs1 imm s
  | .ftrg l rd rs1 imm => Sys2Proof.Machine.execFtrg l rd rs1 imm s
  | .sr l rd rs1 imm => Sys2Proof.Machine.execSr l rd rs1 imm s
  | .rs l rd rs1 imm => Sys2Proof.Machine.execRs l rd rs1 imm s
  | .pmrd l rd imm high => Sys2Proof.Machine.execPmrd l rd imm high s
  | .timl l rd => Sys2Proof.Machine.execTiml l rd s
  | .timh l rd => Sys2Proof.Machine.execTimh l rd s
  | .cixl l rd => Sys2Proof.Machine.execCixl l rd s
  | .cixh l rd => Sys2Proof.Machine.execCixh l rd s
  | .fail l rs1 => Sys2Proof.Machine.execFail l rs1 s
  | .illegalInstruction l word => Sys2Proof.Machine.execIllegalInstruction l word s
  | .debugHalt l => Sys2Proof.Machine.execDebugHalt l s
  | .debugStep l => Sys2Proof.Machine.execDebugStep l s
  | .debugResume l => Sys2Proof.Machine.execDebugResume l s
  | .debugRegisterWrite l reg v => Sys2Proof.Machine.execDebugRegisterWrite l reg v s
  | .debugMemoryWrite l addr v => Sys2Proof.Machine.execDebugMemoryWrite l addr v s
  | .debugBreakpointSet l addr => Sys2Proof.Machine.execDebugBreakpointSet l addr s
  | .breakpointHit l => Sys2Proof.Machine.execBreakpointHit l s
  | .idcode => Sys2Proof.Machine.execIdcode s
  | .bypass => Sys2Proof.Machine.execBypass s
  | .portLinkChange p up gigFull => Sys2Proof.Machine.execPortLinkChange p up gigFull s
  | .guardianSelfCheckFail p => Sys2Proof.Machine.execGuardianSelfCheckFail p s
  | .seatMapReceived t sender map => Sys2Proof.Machine.execSeatMapReceived t sender map s
  | .msixMaskClear h vec => Sys2Proof.Machine.execMsixMaskClear h vec s
  | .telemetrySamplePeriodEnd h stream => Sys2Proof.Machine.execTelemetrySamplePeriodEnd h stream s
  | .fieldTempMeasurement t tempC => Sys2Proof.Machine.execFieldTempMeasurement t tempC s
  | .flashWriteComplete l what => Sys2Proof.Machine.execFlashWriteComplete l what s

end Sys2Proof.Machine
end

