-- ==== Sys2Proof/Machine/Step.lean ====
section
/-! DEFINITION. One step: the command at the front of the queue is executed with the queue's rest; on an empty queue a hub
fetches what waits in its command ring, and else the block idles (log 1). -/

namespace Sys2Proof.Machine

open Sys2Proof

/-- One step. -/
def step (s : State) : Host.Outcome State Fault Refusal :=
  match s.pending with
  | [] =>
    match fetchNext s with
    | none => .next s
    | some (t, e) =>
      match e.cmd with
      | some c => exec c t
      | none => .next (unknownCmd t (e.opcode, e.hd))
  | c :: r => exec c { s with pending := r }

/-- The state with the command a word spells put at the front of its queue; no word spells one (log 5). -/
def State.withFetchWord (s : State) (nbits w : Nat) : State :=
  match decodeTableWord nbits w with
  | none => s
  | some c => { s with pending := c :: s.pending }

end Sys2Proof.Machine
end

