-- ==== Sys2Proof/Safety.lean ====
section
/-! DEFINITION. The terms claims use: what it is for a command to complete, the lane whose M may commit an instruction, and
what a commit may change. -/

namespace Sys2Proof.Machine

open Sys2Proof

/-- The command answers a next state with a property: no fault and no refusal. -/
def Completes (c : Instr) (s : State) (P : State → Prop) : Prop := ∃ t, exec c s = .next t ∧ P t

/-- The command answers the state m of a commit, with a property; the lane's window then ends if it is full (R40). -/
def Commits (c : Instr) (l : LaneId) (s : State) (P : State → Prop) : Prop :=
  ∃ m, P m ∧ exec c s = .next (windowFull l m)

/-- A step that stops nothing. -/
def StepsOn (s : State) : Prop := ∃ t, step s = .next t

/-- The lane's M may commit the next instruction of a task (R35, R45, R53, R85): PWRGD is high, the lane is neither fenced
nor halted but for one armed step, no store of it waits, and the task is the one it runs. -/
structure Ready (s : State) (l : LaneId) (T : Task) : Prop where
  on      : s.mod.pwrgd = true
  unfenced : (lane s l).fenced = false
  noWait  : (lane s l).wait = none
  going   : (lane s l).dbg.halted = false ∨ (lane s l).dbg.stepArm = true
  task    : (lane s l).cur = some T

/-- Everything but one lane is as it was. -/
def OnlyLane (l : LaneId) (s t : State) : Prop :=
  t = { s with lanes := t.lanes } ∧ ∀ k, k ≠ l → lane t k = lane s k

/-- A byte as the lane's M loads it (R41). -/
def seen (s : State) (l : LaneId) (a : Nat) : Byte := laneByte (lane s l) a

/-- What a commit leaves of a lane: all but the running task, the operation counts, the signatures, the delay queue, what K
has reached, the counters, the marks of a scrub, the armed step and the outbound buffer (R35-R41, R386, R447). -/
def CommitFrame (L M : Lane) : Prop :=
  M = { L with cur := M.cur, kCur := M.kCur, kHalted := M.kHalted, dbg := { L.dbg with stepArm := false }, winOps := M.winOps, opsCount := M.opsCount,
               sigM := M.sigM, sigK := M.sigK, dq := M.dq, ctrs := M.ctrs,
               scrub := { L.scrub with marked := M.scrub.marked }, outBuf := M.outBuf }

/-- An instruction of a weight that goes on with a task and stores nothing: the task, the operation count, every byte as M
loads it, and nothing else but what CommitFrame names. -/
def GoesOn (s : State) (l : LaneId) (U : Task) (weight : Nat) (t : State) : Prop :=
  OnlyLane l s t ∧ CommitFrame (lane s l) (lane t l) ∧ (lane t l).cur = some U ∧
    (lane t l).opsCount = (lane s l).opsCount + weight ∧ (lane t l).outBuf = (lane s l).outBuf ∧
    (lane t l).scrub = (lane s l).scrub

/-- The registers of a task after a write of rd: X0 stays 0, every other register keeps its value (R138). -/
def RegWritten (T U : Task) (rd : Reg) (v : Word) : Prop :=
  U = { T with x := U.x, pc := U.pc } ∧ ∀ r, getX U r = if r = rd ∧ rd ≠ 0 then v else getX T r

/-- An instruction that writes rd and goes on at the next word (R138, R142). -/
def Writes (s : State) (l : LaneId) (T : Task) (rd : Reg) (v : Word) (weight : Nat) (t : State) : Prop :=
  ∃ U, RegWritten T U rd v ∧ U.pc = T.pc + 4 ∧ GoesOn s l U weight t

/-- An integer clamped to the range of a signed word (R147). -/
def clamp32 (v : Int) : Word := BitVec.ofInt 32 (max (-(2 ^ 31)) (min (2 ^ 31 - 1) v))

/-- A context fault of a lane's task (R183, R184): the context is in SAFE_FAULT with its cause; what it publishes
stands until that cycle's output point; its tasks in the lane are gone, the instruction has stored nothing; other contexts of the lane, the tiles and every other
lane are as they were. -/
def Faults (s : State) (l : LaneId) (T : Task) (cause : Nat) (t : State) : Prop :=
  (ctxRun (lane t l) T.ctx).st = .safeFault ∧ (ctxRun (lane t l) T.ctx).fault = cause ∧
    (ctxRun (lane t l) T.ctx).safePub = (ctxRun (lane s l) T.ctx).safePub ∧ (ctxRun (lane t l) T.ctx).busy = false ∧
    (∀ u, (lane t l).cur = some u → u.ctx ≠ T.ctx) ∧
    (∀ n, n ≠ T.ctx → ctxRun (lane t l) n = ctxRun (lane s l) n) ∧
    (lane t l).mem = (lane s l).mem ∧ (lane t l).outBuf = (lane s l).outBuf ∧
    (lane t l).opsCount = (lane s l).opsCount ∧
    (lane t l).nv.diag.getLast?.map (·.kind) = some 2 ∧
    (∀ k, k ≠ l → lane t k = lane s k) ∧ t.tiles = s.tiles ∧ t.grp = s.grp ∧ t.mod = s.mod

/-- A byte of a word, the least significant first (R141). -/
def byteOf {n : Nat} (w : BitVec n) (k : Nat) : Byte := w.extractLsb' (8 * k) 8

/-- The halfword at an address as the lane's M loads it (R141). -/
def seenHalf (s : State) (l : LaneId) (a : Nat) : BitVec 16 := seen s l (a + 1) ++ seen s l a

/-- The word at an address as the lane's M loads it (R141). -/
def seenWord (s : State) (l : LaneId) (a : Nat) : Word := seenHalf s l (a + 2) ++ seenHalf s l a

/-- The doubleword at an address as the lane's M loads it (R141). -/
def seenDouble (s : State) (l : LaneId) (a : Nat) : DWord := seenWord s l (a + 4) ++ seenWord s l a

/-- No block of a join's snapshot that the lane has still to send lies under a range of bytes (R85). -/
def NoStaging (s : State) (l : LaneId) (a n : Nat) : Prop :=
  ∀ j, s.grp.join = some j → ∀ x, a ≤ x → x < a + n →
    j.unsent.contains (x / 4096) = true → j.staged.contains (x / 4096) = false → srcOf j (x / 4096) ≠ some l

/-- An instruction of a weight that goes on with a task and stores: every byte as M loads it is what `after` says, nothing
has reached the SRAM yet (R41), and nothing else has changed but what CommitFrame names. -/
def StoresOn (s : State) (l : LaneId) (U : Task) (weight : Nat) (after : Nat → Byte) (t : State) : Prop :=
  OnlyLane l s t ∧ CommitFrame (lane s l) (lane t l) ∧ (lane t l).cur = some U ∧
    (lane t l).opsCount = (lane s l).opsCount + weight ∧ (lane t l).mem = (lane s l).mem ∧
    ∀ x, seen t l x = after x

/-- An evaluation of a built-in (R169): rd written, the next word, weight 3, and the bytes of its slot. -/
def Evaluates (s : State) (l : LaneId) (T : Task) (rd : Reg) (v : Word) (after : Nat → Byte) (t : State) : Prop :=
  ∃ U, RegWritten T U rd v ∧ U.pc = T.pc + 4 ∧ StoresOn s l U 3 after t

/-- A slot of n bytes aligned to `al` that an evaluation may write (R163, R169, R170): wholly inside the current instance
after its header, over no nested header, and fresh or of the built-in's kind. -/
structure SlotOk (s : State) (l : LaneId) (T : Task) (a n al kind : Nat) : Prop where
  after   : T.ib.toNat + 4 ≤ a
  inside  : a + n ≤ T.ib.toNat + 16 * ((seenWord s l T.ib.toNat).toNat % 2 ^ 20)
  aligned : a % al = 0
  noHeader : overHeader (lane s l) a n = false
  kindOk  : (seen s l a).toNat / 16 = 0 ∨ (seen s l a).toNat / 16 = kind
  noStage : NoStaging s l a n

/-- The first word of a slot: four flags, KIND, every other bit 0 (R170). -/
def firstWord (b0 b1 b2 b3 : Bool) (kind : Nat) : Word :=
  BitVec.ofNat 32 (b0.toNat + 2 * b1.toNat + 4 * b2.toNat + 8 * b3.toNat + 16 * kind)

/-- A target that R158 permits. -/
def InCode (p : Word) : Prop := p.toNat % 4 = 0 ∧ 0x14100 ≤ p.toNat ∧ p.toNat ≤ 0x1BFFFF

/-! ## Terms of the commands of the module -/

/-- Everything but the hubs is as it was: events, replies and records reach the host through them alone. -/
def OnlyHubs (s t : State) : Prop := t = { s with hubs := t.hubs }

/-- A lane that has fenced itself (R45): gates released, no word leaves it, no task runs, what waited to leave is discarded
and has not reached the SRAM. -/
def FencedWith (cause : Nat) (L M : Lane) : Prop :=
  M.fenced = true ∧ M.fenceCause = cause ∧ M.gatesOn = false ∧ M.hubWords = false ∧ M.cur = none ∧ M.outBuf = [] ∧
    M.mem = L.mem

/-- K, once it has drained its queue, has signed what M has signed: an early end of the window finds no mismatch (R37, R40). -/
def InStep (L : Lane) : Prop := L.sigM = (kRun L 0 L.dq).sigK

/-- What a lane takes in from outside changes nothing of it but its power state, its delay queue, its counters and how far K has
come (R35, R495). -/
def TakesIn (L M : Lane) : Prop :=
  M = { L with power := M.power, kCur := M.kCur, kHalted := M.kHalted, sigK := M.sigK, ctrs := M.ctrs, dq := M.dq }

/-- The end of a lane's window whose signatures agree changes its window alone: what waited to leave stands in the SRAM, as M saw
it (R37, R41). -/
def WindowEnds (L M : Lane) : Prop :=
  M = { L with mem := M.mem, outBuf := M.outBuf, sigM := M.sigM, sigK := M.sigK, winOps := M.winOps, dq := M.dq, ctrs := M.ctrs,
               kCur := M.kCur, kHalted := M.kHalted } ∧ (memWf L.mem = true → ∀ a, laneByte M a = laneByte L a)

/-- A rail the monitor compares: in DOZE the retention rail in place of the core rail (R496). -/
def RailWatched (p : PowerSt) (r : Rail) : Prop :=
  match r with
  | .vdd => p ≠ .doze
  | .vaux => True
  | .doze => p = .doze

/-- A rail in the range in which the monitor never acts (R541). -/
def RailInRange (r : Rail) (mv : Nat) : Prop :=
  match r with
  | .vdd => 805 ≤ mv ∧ mv ≤ 905
  | .vaux => 1680 ≤ mv ∧ mv ≤ 1920
  | .doze => 560 ≤ mv

/-- A rail beyond the limit at which the monitor always acts (R541). -/
def RailOut (r : Rail) (mv : Nat) : Prop :=
  match r with
  | .vdd => mv < 800 ∨ 915 < mv
  | .vaux => mv < 1650 ∨ 1950 < mv
  | .doze => mv < 550

/-- A lane's supply fences of the last 24 h (R511). -/
def supplyFences24 (s : State) (l : LaneId) : Nat :=
  ((lane s l).supplyFences.filter fun t => s.grp.groupTime.toNat < t + 864000000).length

/-- The group runs: formed and not in SAFE. -/
def Runs (s : State) : Prop := s.grp.gst ≠ .forming ∧ s.grp.gst ≠ .safe

/-- Everything but one tile and what the hubs tell the host is as it was. -/
def OnlyTile (k : TileId) (s t : State) : Prop :=
  t = { s with tiles := t.tiles, hubs := t.hubs } ∧ ∀ j, j ≠ k → tile t j = tile s j

/-- A tile has become T; each of its cuffs stands as two seats command it (R333). -/
def TileBecomes (k : TileId) (T : Tile) (s t : State) : Prop :=
  OnlyTile k s t ∧ tile t k = { T with cuffs := (tile t k).cuffs } ∧
    ∀ b, duoGet (tile t k).cuffs b = { duoGet T.cuffs b with closed := cuffShut t k b }

/-- A tile with one channel replaced. -/
def withChan (T : Tile) (k : Nat) (c : Chan) : Tile := { T with chans := T.chans.setIfInBounds k c }

/-- A tile with one cuff replaced. -/
def withCuff (T : Tile) (b : Bool) (q : Cuff) : Tile := { T with cuffs := duoSet T.cuffs b q }

/-- A channel is listed as LOST in every lane's journal, and nothing else of a lane has changed but its list of cuffs held
open (R311, R334). -/
def LossRecorded (n : Nat) (s t : State) : Prop :=
  ∀ l, n ∈ (lane t l).nv.lostCh ∧ (∀ m, m ≠ n → (m ∈ (lane t l).nv.lostCh ↔ m ∈ (lane s l).nv.lostCh)) ∧
    lane t l = { lane s l with nv := { (lane s l).nv with lostCh := (lane t l).nv.lostCh, cuffHeld := (lane t l).nv.cuffHeld } }

/-! ## Terms of the host commands -/

/-- A row of the tables of R408 and R413: the command's header, opcode, longest reply, handle type (none: the handle is 0;
0: any type but a session's), whether its length fits, the operating states that allow it, the seal check, and the items it takes (R429). -/
structure HostRow where
  hd      : Hdr
  op      : Nat
  maxRep  : Nat
  ty      : Option Nat
  len     : State → Bool
  allowed : OpState → Bool
  unsealed : Bool := false
  items   : Nat := 1

/-- The row of a host command that replies (R408, R413). -/
def hostRow : Instr → Option HostRow
  | .identity hd => some ⟨hd, 0x0101, 64, none, fun _ => hd.plen == 0, fun _ => true, false, 1⟩
  | .laneStatus hd => some ⟨hd, 0x0102, 32, none, fun _ => hd.plen == 0, fun _ => true, false, 1⟩
  | .groupStatus hd => some ⟨hd, 0x0103, 8, none, fun _ => hd.plen == 0, fun _ => true, false, 1⟩
  | .tileStatus hd _ => some ⟨hd, 0x0104, 40, none, fun _ => hd.plen == 1, fun _ => true, false, 1⟩
  | .contextStatus hd _ => some ⟨hd, 0x0105, 8, none, fun _ => hd.plen == 1, fun _ => true, false, 1⟩
  | .stationStatus hd => some ⟨hd, 0x0106, 8, some 1, fun _ => hd.plen == 0, fun _ => true, false, 1⟩
  | .channelCreate hd cb => some ⟨hd, 0x0201, 0, none, fun _ => createLen hd cb, fun o => o != .startUp, false, 1⟩
  | .channelDestroy hd => some ⟨hd, 0x0202, 0, some 0, fun _ => hd.plen == 0, fun o => o != .startUp, false, 1⟩
  | .eventSubscribe hd _ _ => some ⟨hd, 0x0203, 0, some 2, fun _ => hd.plen == 8, fun o => o != .startUp, false, 1⟩
  | .eventUnsubscribe hd _ _ => some ⟨hd, 0x0204, 0, some 2, fun _ => hd.plen == 8, fun o => o != .startUp, false, 1⟩
  | .contextStart hd _ =>
    some ⟨hd, 0x0301, 8, none, fun _ => hd.plen == 1, fun o => o != .startUp && o != .safe, false, 1⟩
  | .contextStop hd _ =>
    some ⟨hd, 0x0302, 8, none, fun _ => hd.plen == 1, fun o => o != .startUp && o != .safe, false, 1⟩
  | .contextRestart hd _ =>
    some ⟨hd, 0x0303, 8, none, fun _ => hd.plen == 1, fun o => o != .startUp && o != .safe, false, 1⟩
  | .valueChange hd _ n _ =>
    some ⟨hd, 0x0401, 8, none, fun _ => hd.plen == 4 + 8 * n, fun o => o != .startUp && o != .safe, false, 1⟩
  | .valueRead hd _ n _ =>
    some ⟨hd, 0x0402, 132, none, fun _ => hd.plen == 4 + 4 * n, fun o => o != .startUp && o != .safe, false, 1⟩
  | .updateOpen hd bs => some ⟨hd, 0x0501, 8, none, fun _ => hd.plen == 256 && bs.length == 256,
      fun o => o != .startUp && o != .safe, false, 1⟩
  | .updateBlock hd _ _ _ =>
    some ⟨hd, 0x0502, 0, some 6, fun _ => hd.plen == 16, fun o => o != .startUp && o != .safe, false, 1⟩
  | .updateVerify hd =>
    some ⟨hd, 0x0503, 0, some 6, fun _ => hd.plen == 0, fun o => o != .startUp && o != .safe, false, 1⟩
  | .updatePlan hd _ => some ⟨hd, 0x0504, 8, some 6, fun _ => hd.plen == 8, fun o => o != .startUp && o != .safe, false, 1⟩
  | .updateConfirm hd =>
    some ⟨hd, 0x0505, 0, some 6, fun _ => hd.plen == 0, fun o => o != .startUp && o != .safe, false, 1⟩
  | .updateAbort hd => some ⟨hd, 0x0506, 0, some 6, fun _ => hd.plen == 0, fun o => o != .startUp, false, 1⟩
  | .updateStatus hd => some ⟨hd, 0x0507, 32, some 6, fun _ => hd.plen == 0, fun o => o != .startUp, false, 1⟩
  | .counterConfig hd _ _ _ => some ⟨hd, 0x0601, 0, some 7, fun _ => hd.plen == 16, fun o => o != .startUp, false, 1⟩
  | .counterRead hd _ _ => some ⟨hd, 0x0602, 144, some 7, fun _ => hd.plen == 0, fun o => o != .startUp, false, 1⟩
  | .counterClear hd _ _ => some ⟨hd, 0x0603, 16, some 7, fun _ => hd.plen == 0, fun o => o != .startUp, false, 1⟩
  | .telemetryStart hd _ => some ⟨hd, 0x0701, 0, some 4, fun _ => hd.plen == 4, fun o => o != .startUp, false, 1⟩
  | .telemetryStop hd => some ⟨hd, 0x0702, 0, some 4, fun _ => hd.plen == 0, fun o => o != .startUp, false, 1⟩
  | .request hd bs => some ⟨hd, 0x0801, 8, some 5, requestLen hd bs, fun o => o != .startUp && o != .safe, false, 1⟩
  | .serviceRead hd _ _ =>
    some ⟨hd, 0x0802, 64, some 1, fun _ => hd.plen == 4, fun o => o != .startUp && o != .safe, false, 2⟩
  | .serviceWrite hd _ bs =>
    some ⟨hd, 0x0803, 0, some 1, serviceWriteLen hd bs, fun o => o != .startUp && o != .safe, false, 2⟩
  | .rotateNow hd => some ⟨hd, 0x0901, 0, none, fun _ => hd.plen == 0, fun o => o != .startUp && o != .safe, false, 1⟩
  | .laneSelfTest hd _ =>
    some ⟨hd, 0x0902, 0, none, fun _ => hd.plen == 1, fun o => o != .startUp && o != .safe, false, 1⟩
  | .hatConfirm hd _ => some ⟨hd, 0x0903, 0, none, fun _ => hd.plen == 8, fun o => o == .bench, true, 1⟩
  | .groupRestart hd => some ⟨hd, 0x0904, 0, none, fun _ => hd.plen == 0, fun o => o == .safe, false, 1⟩
  | .tileReset hd _ => some ⟨hd, 0x0905, 8, none, fun _ => hd.plen == 1, fun o => o != .startUp && o != .safe, false, 1⟩
  | .driveReset hd _ =>
    some ⟨hd, 0x0906, 8, none, fun _ => hd.plen == 1, fun o => o != .startUp && o != .safe, false, 1⟩
  | .settingGet hd _ => some ⟨hd, 0x0A01, 16, none, fun _ => hd.plen == 4, fun _ => true, false, 1⟩
  | .settingSet hd _ _ => some ⟨hd, 0x0A02, 8, none, fun _ => hd.plen == 8, fun o => o != .startUp, false, 1⟩
  | .settingsSave hd => some ⟨hd, 0x0A03, 0, none, fun _ => hd.plen == 0, fun o => o != .startUp, false, 1⟩
  | .settingsFactory hd _ => some ⟨hd, 0x0A04, 0, none, fun _ => hd.plen == 1, fun o => o != .startUp, false, 1⟩
  | _ => none

/-- A hub fetches a command with a longest reply of n bytes and some items (R393, R396, R399, R414, R429). -/
structure Fetched (s : State) (hd : Hdr) (n items : Nat) : Prop where
  on     : s.mod.pwrgd = true
  serves : hubServes (hub s hd.hub) = true
  rings  : ringsOn (hub s hd.hub) = true
  link   : (hub s hd.hub).pcieUp = true
  avail  : hdrUnits hd ≤ ((hub s hd.hub).cmdProd - (hub s hd.hub).cmdCons).toNat
  turn   : (hub s hd.hub).due = true ∨ (hub s hd.hub).ring.isEmpty = true
  room   : ringRoom (hub s hd.hub).rpl ((16 + n + 63) / 64 + heldUnits (hub s hd.hub)) = true
  flight : itemFree s hd.hub .command items = true
  fence  : hd.fence = true → inFlight s hd.hub = 0

/-- The header and the tag of a command pass (R398, R400, R402). -/
def GoodHeader (s : State) (hd : Hdr) : Prop :=
  hd.version = 1 ∧ hd.flagRsv = 0 ∧ hd.status = 0 ∧ tagKnown s hd.hub hd.tag = false

/-- A command of a row is fetched and passes every check before its parameter values (R402). -/
def Passes (s : State) (i : Instr) (hd : Hdr) : Prop :=
  ∃ r, hostRow i = some r ∧ r.hd = hd ∧ Fetched s hd r.maxRep r.items ∧ GoodHeader s hd ∧
    handleCheck s hd.hub r.ty hd.handle = none ∧ r.len s = true ∧ (r.unsealed = true → isSealed s = false) ∧
    r.allowed s.mod.op = true

/-- The entry of a reply to a command (R398). -/
def replyOf (hd : Hdr) (op : Nat) (handle : Word) (status : Nat) (data : List Byte) : RingEntry :=
  { code := op, flags := hdrFlags hd, tag := hd.tag, handle := handle, status := status, data := data }

/-- The units of a fetched command are free again, and its tag is the latest of its hub's last 1,024 (R393, R400). -/
def Taken (s : State) (hd : Hdr) (op : Nat) (P : TagRec → Prop) (t : State) : Prop :=
  (hub t hd.hub).cmdCons = (hub s hd.hub).cmdCons + BitVec.ofNat 32 (hdrUnits hd) ∧
    ∃ r, (tagsOf t.grp hd.hub).getLast? = some r ∧ r.tag = hd.tag ∧ r.opcode = op ∧ P r

/-- A command has its final reply (R396, R398, R400). -/
def Replied (s : State) (hd : Hdr) (op : Nat) (handle : Word) (status : Nat) (data : List Byte) (t : State) : Prop :=
  (hub t hd.hub).rpl.out.getLast? = some (replyOf hd op handle status data) ∧
    Taken s hd op (fun r => r.done = true ∧ r.status = some status) t

/-- A posted command is ACCEPTED and has no outcome yet (R400, R575). -/
def Accepted (s : State) (hd : Hdr) (op : Nat) (t : State) : Prop :=
  replyOf hd op hd.handle 1 [] ∈ (hub t hd.hub).rpl.out ∧
    Taken s hd op (fun r => r.done = false ∧ r.posted = true ∧ r.replied = true) t

/-- A state is b but for a reply on a command's hub: the index of the command ring, the reply ring, the hub's counters, the
shadow block, its vectors, its gated blocks and its last tags. -/
def OnlyReply (hd : Hdr) (b t : State) : Prop :=
  let h := hd.hub
  t = { b with hubs := t.hubs, grp := { b.grp with tags0 := t.grp.tags0, tags1 := t.grp.tags1 } } ∧
    tagsOf t.grp (peerHub h) = tagsOf b.grp (peerHub h) ∧ hub t (peerHub h) = hub b (peerHub h) ∧
    hub t h = { hub b h with cmdCons := (hub t h).cmdCons, rpl := (hub t h).rpl, ctrs := (hub t h).ctrs,
                             ctrOwed := (hub t h).ctrOwed, shadowOut := (hub t h).shadowOut, vecs := (hub t h).vecs,
                             pools := (hub t h).pools, gated := (hub t h).gated, due := (hub t h).due }

/-- A command is refused with a status and has no other effect (R402). -/
def Refused (s : State) (i : Instr) (hd : Hdr) (op status : Nat) : Prop :=
  Completes i s fun t => Replied s hd op hd.handle status [] t ∧ OnlyReply hd s t

/-- A command is answered OK with data and has no other effect. -/
def Answered (s : State) (i : Instr) (hd : Hdr) (op : Nat) (data : List Byte) : Prop :=
  Completes i s fun t => Replied s hd op hd.handle 0 data t ∧ OnlyReply hd s t

/-- The first round boundary at least 1 ms after a command's stamping (R124). -/
def FirstRound (s : State) (us r : Nat) : Prop :=
  let d := 100 * roundTicks s
  s.grp.round.toNat < r ∧ 1000 + us ≤ (r - s.grp.round.toNat) * d ∧ (r - s.grp.round.toNat - 1) * d < 1000 + us

/-- The first cycle of a context that starts at such a boundary or later (R124). -/
def FirstCycle (s : State) (c : CtxCfg) (us idx : Nat) : Prop :=
  ∀ r, FirstRound s us r → r ≤ cycleRound c idx ∧ ∀ j, j < idx → cycleRound c j < r

/-- An action stamped for a slot waits in its hub for the lanes, next in the order of all (R19, R124). -/
def withAction (s : State) (hd : Hdr) (slot : Nat) (k : ActKind) : State :=
  let a : Action := { hub := hd.hub, order := s.grp.order, tag := hd.tag, handle := hd.handle,
                      slot := BitVec.ofNat 64 slot, kind := k }
  setHub { s with grp := { s.grp with order := s.grp.order + 1 } } hd.hub
    { hub s hd.hub with outbox := (hub s hd.hub).outbox ++ [a] }

/-- A stamped command: OK with the slot, and nothing but its action has changed (R408). -/
def Stamped (s : State) (i : Instr) (hd : Hdr) (op slot : Nat) (k : ActKind) : Prop :=
  Completes i s fun t => Replied s hd op hd.handle 0 (leBytes 8 (slot % 2 ^ 64)) t ∧ OnlyReply hd (withAction s hd slot k) t

/-- Every SRAM and every bank of flash, and the snapshot of a join, are in the one canonical form: addresses rise, and no
byte is listed that reads as an unlisted one. -/
def MemoryCanonical (s : State) : Prop :=
  (∀ l, memWf (lane s l).mem = true ∧ memWf (lane s l).nv.bankA.data = true ∧ memWf (lane s l).nv.bankB.data = true ∧
    ∀ nv, (lane s l).flashNv = some nv → memWf nv.bankA.data = true ∧ memWf nv.bankB.data = true) ∧
    ∀ j, s.grp.join = some j → memWf j.snap = true

end Sys2Proof.Machine
end

