-- ==== Sys2Proof/Certificates/Slice0/Obligations.lean ====
section
/-! DEFINITION. The statements for the provers. -/

open Sys2Proof Sys2Proof.Machine

/-! ## Function-block code: arithmetic -/

/-- ADD, SUB, MUL, ABS and ADDI on signed values saturate (R147, R150, R151): the result is the exact one clamped to 32 bits,
whichever registers are named; a write to X0 is discarded, every other register keeps its value, the PC goes to the next
word, and nothing is stored. -/
def Obligations.SaturatingArithmetic : Prop :=
  ∀ (s : State) (l : LaneId) (T : Task) (rd a b : Reg) (i : BitVec 12), Ready s l T →
    Commits (.add l rd a b) l s (Writes s l T rd (clamp32 ((getX T a).toInt + (getX T b).toInt)) 1) ∧
    Commits (.sub l rd a b) l s (Writes s l T rd (clamp32 ((getX T a).toInt - (getX T b).toInt)) 1) ∧
    Commits (.mul l rd a b) l s (Writes s l T rd (clamp32 ((getX T a).toInt * (getX T b).toInt)) 2) ∧
    Commits (.abs l rd a) l s (Writes s l T rd (clamp32 (getX T a).toInt.natAbs) 1) ∧
    Commits (.addi l rd a i) l s (Writes s l T rd (clamp32 ((getX T a).toInt + i.toInt)) 1)

/-- DIV and MOD (R148): for a divisor other than 0, quotient and remainder satisfy the division identity with the
quotient truncated toward zero, clamped, and the remainder bearing the dividend's sign; by 0 the limits of the rule. -/
def Obligations.DivisionAndRemainder : Prop :=
  ∀ (s : State) (l : LaneId) (T : Task) (rd a b : Reg), Ready s l T →
    (getX T b = 0 →
      Commits (.div l rd a b) l s
        (Writes s l T rd (if (getX T a).toInt < 0 then 0x80000000 else 0x7FFFFFFF) 8) ∧
      Commits (.mod l rd a b) l s (Writes s l T rd 0 8)) ∧
    (getX T b ≠ 0 → ∃ q r : Int,
      (getX T a).toInt = q * (getX T b).toInt + r ∧ r.natAbs < (getX T b).toInt.natAbs ∧
      (r ≠ 0 → (0 < r ↔ 0 < (getX T a).toInt)) ∧
      Commits (.div l rd a b) l s (Writes s l T rd (clamp32 q) 8) ∧
      Commits (.mod l rd a b) l s (Writes s l T rd (BitVec.ofInt 32 r) 8))

/-- The logical instructions work bit by bit, their immediates zero-extended; MIN, MAX, MINI and MAXI compare signed values,
their immediates sign-extended (R146, R150, R151). -/
def Obligations.LogicMinimumMaximum : Prop :=
  ∀ (s : State) (l : LaneId) (T : Task) (rd a b : Reg) (i : BitVec 12), Ready s l T →
    Commits (.and l rd a b) l s (Writes s l T rd (getX T a &&& getX T b) 1) ∧
    Commits (.or l rd a b) l s (Writes s l T rd (getX T a ||| getX T b) 1) ∧
    Commits (.xor l rd a b) l s (Writes s l T rd (getX T a ^^^ getX T b) 1) ∧
    Commits (.andn l rd a b) l s (Writes s l T rd (getX T a &&& ~~~(getX T b)) 1) ∧
    Commits (.andi l rd a i) l s (Writes s l T rd (getX T a &&& i.setWidth 32) 1) ∧
    Commits (.ori l rd a i) l s (Writes s l T rd (getX T a ||| i.setWidth 32) 1) ∧
    Commits (.xori l rd a i) l s (Writes s l T rd (getX T a ^^^ i.setWidth 32) 1) ∧
    Commits (.min l rd a b) l s (Writes s l T rd (BitVec.ofInt 32 (min (getX T a).toInt (getX T b).toInt)) 1) ∧
    Commits (.max l rd a b) l s (Writes s l T rd (BitVec.ofInt 32 (max (getX T a).toInt (getX T b).toInt)) 1) ∧
    Commits (.mini l rd a i) l s (Writes s l T rd (BitVec.ofInt 32 (min (getX T a).toInt i.toInt)) 1) ∧
    Commits (.maxi l rd a i) l s (Writes s l T rd (BitVec.ofInt 32 (max (getX T a).toInt i.toInt)) 1)

/-- Shifts move each bit by the amount, rs2[4:0] or imm[4:0]; zeros come in, or the sign in SAR and SARI (R146, R150, R151).
An immediate with a bit of [11:5] set is an illegal instruction (R145). -/
def Obligations.Shifts : Prop :=
  ∀ (s : State) (l : LaneId) (T : Task) (rd a b : Reg) (i : BitVec 12), Ready s l T →
    (∃ v, Commits (.shl l rd a b) l s (Writes s l T rd v 1) ∧
      ∀ k, k < 32 → v.getLsbD k =
        ((getX T b).toNat % 32 ≤ k && (getX T a).getLsbD (k - (getX T b).toNat % 32))) ∧
    (∃ v, Commits (.shr l rd a b) l s (Writes s l T rd v 1) ∧
      ∀ k, k < 32 → v.getLsbD k = (getX T a).getLsbD (k + (getX T b).toNat % 32)) ∧
    (∃ v, Commits (.sar l rd a b) l s (Writes s l T rd v 1) ∧
      v.toInt = (getX T a).toInt / 2 ^ ((getX T b).toNat % 32)) ∧
    (i.toNat < 32 →
      (∃ v, Commits (.shli l rd a i) l s (Writes s l T rd v 1) ∧
        ∀ k, k < 32 → v.getLsbD k = (i.toNat ≤ k && (getX T a).getLsbD (k - i.toNat))) ∧
      (∃ v, Commits (.shri l rd a i) l s (Writes s l T rd v 1) ∧
        ∀ k, k < 32 → v.getLsbD k = (getX T a).getLsbD (k + i.toNat)) ∧
      (∃ v, Commits (.sari l rd a i) l s (Writes s l T rd v 1) ∧
        v.toInt = (getX T a).toInt / 2 ^ i.toNat)) ∧
    (32 ≤ i.toNat →
      Completes (.shli l rd a i) s (Faults s l T 1) ∧ Completes (.shri l rd a i) s (Faults s l T 1) ∧
      Completes (.sari l rd a i) s (Faults s l T 1))

/-- Compares write 1 for true and 0 for false (R149); SLTIU compares both sides unsigned after sign extension (R150, R151). -/
def Obligations.Compares : Prop :=
  ∀ (s : State) (l : LaneId) (T : Task) (rd a b : Reg) (i : BitVec 12), Ready s l T →
    Commits (.seq l rd a b) l s (Writes s l T rd (if getX T a = getX T b then 1 else 0) 1) ∧
    Commits (.sne l rd a b) l s (Writes s l T rd (if getX T a = getX T b then 0 else 1) 1) ∧
    Commits (.slt l rd a b) l s (Writes s l T rd (if (getX T a).toInt < (getX T b).toInt then 1 else 0) 1) ∧
    Commits (.sltu l rd a b) l s (Writes s l T rd (if (getX T a).toNat < (getX T b).toNat then 1 else 0) 1) ∧
    Commits (.sge l rd a b) l s (Writes s l T rd (if (getX T a).toInt < (getX T b).toInt then 0 else 1) 1) ∧
    Commits (.sgeu l rd a b) l s (Writes s l T rd (if (getX T a).toNat < (getX T b).toNat then 0 else 1) 1) ∧
    Commits (.slti l rd a i) l s (Writes s l T rd (if (getX T a).toInt < i.toInt then 1 else 0) 1) ∧
    Commits (.sltiu l rd a i) l s
      (Writes s l T rd (if (getX T a).toNat < (i.signExtend 32).toNat then 1 else 0) 1) ∧
    Commits (.seqi l rd a i) l s (Writes s l T rd (if (getX T a).toInt = i.toInt then 1 else 0) 1)

/-- LUI, LI, MOVIB, TIML, TIMH, CIXL and CIXH write their value into rd (R152, R168, R181). -/
def Obligations.ImmediatesAndTaskValues : Prop :=
  ∀ (s : State) (l : LaneId) (T : Task) (rd : Reg) (i : BitVec 20), Ready s l T →
    Commits (.lui l rd i) l s (Writes s l T rd (i ++ (0 : BitVec 12)) 1) ∧
    Commits (.li l rd i) l s (Writes s l T rd (BitVec.ofInt 32 i.toInt) 1) ∧
    Commits (.movib l rd) l s (Writes s l T rd T.ib 1) ∧
    Commits (.timl l rd) l s (Writes s l T rd (T.now.extractLsb' 0 32) 1) ∧
    Commits (.timh l rd) l s (Writes s l T rd (T.now.extractLsb' 32 32) 1) ∧
    Commits (.cixl l rd) l s (Writes s l T rd (T.cyc.extractLsb' 0 32) 1) ∧
    Commits (.cixh l rd) l s (Writes s l T rd (T.cyc.extractLsb' 32 32) 1)

/-! ## Function-block code: memory -/

/-- A load of an aligned address in the context's own instance range reads the bytes as M sees them, little-endian, extended
as the instruction says (R141, R153-R155); the address is a 32-bit sum, with IB where the form has it. -/
def Obligations.LoadsReadOwnRange : Prop :=
  ∀ (s : State) (l : LaneId) (T : Task) (c : CtxCfg) (ib : Bool) (rd b : Reg) (i : BitVec 12) (a : Nat), Ready s l T →
    ctxCfg? (lane s l).cfg T.ctx = some c →
    a = ((if ib then T.ib else 0) + getX T b + i.signExtend 32).toNat →
    c.base ≤ a →
    (a + 4 ≤ c.base + c.size → a % 4 = 0 → Commits (.ld l ib rd b i) l s (Writes s l T rd (seenWord s l a) 1)) ∧
    (a + 2 ≤ c.base + c.size → a % 2 = 0 →
      Commits (.ldh l ib rd b i) l s (Writes s l T rd ((seenHalf s l a).signExtend 32) 1) ∧
      Commits (.ldhu l ib rd b i) l s (Writes s l T rd ((seenHalf s l a).setWidth 32) 1)) ∧
    (a + 1 ≤ c.base + c.size →
      Commits (.ldb l ib rd b i) l s (Writes s l T rd ((seen s l a).signExtend 32) 1) ∧
      Commits (.ldbu l ib rd b i) l s (Writes s l T rd ((seen s l a).setWidth 32) 1))

/-- A store to an aligned address in the context's own instance range, over no instance header, changes exactly the bytes
of its width as M loads them, little-endian; no byte has reached the SRAM yet (R41, R141, R153-R155, R163). -/
def Obligations.StoresWriteOwnRange : Prop :=
  ∀ (s : State) (l : LaneId) (T : Task) (c : CtxCfg) (ib : Bool) (r b : Reg) (i : BitVec 12) (a n : Nat), Ready s l T →
    ctxCfg? (lane s l).cfg T.ctx = some c →
    a = ((if ib then T.ib else 0) + getX T b + i.signExtend 32).toNat →
    c.base ≤ a → a + n ≤ c.base + c.size → a % n = 0 → overHeader (lane s l) a n = false → NoStaging s l a n →
    let after (x : Nat) : Byte := if a ≤ x ∧ x < a + n then byteOf (getX T r) (x - a) else seen s l x
    (n = 4 → Commits (.st l ib r b i) l s (StoresOn s l { T with pc := T.pc + 4 } 1 after)) ∧
    (n = 2 → Commits (.sth l ib r b i) l s (StoresOn s l { T with pc := T.pc + 4 } 1 after)) ∧
    (n = 1 → Commits (.stb l ib r b i) l s (StoresOn s l { T with pc := T.pc + 4 } 1 after))

/-- Where a load or store of a vital context faults: outside its own range cause 5, or 10 in a register block; misaligned
cause 6; a store over an instance header cause 5; of several the lowest (R154, R155, R163, R183). -/
def Obligations.VitalAccessFaults : Prop :=
  ∀ (s : State) (l : LaneId) (T : Task) (c : CtxCfg) (ib : Bool) (r b : Reg) (i : BitVec 12) (a : Nat), Ready s l T →
    ctxCfg? (lane s l).cfg T.ctx = some c → c.vital = true →
    a = ((if ib then T.ib else 0) + getX T b + i.signExtend 32).toNat →
    let own := c.base ≤ a ∧ a + 4 ≤ c.base + c.size
    let block := (0x40003000 ≤ a ∧ a + 4 ≤ 0x40004000) ∨ (0x40005000 ≤ a ∧ a + 4 ≤ 0x40006000)
    (¬ own → ¬ block → Completes (.ld l ib r b i) s (Faults s l T 5) ∧ Completes (.st l ib r b i) s (Faults s l T 5)) ∧
    (¬ own → block → a % 4 = 0 →
      Completes (.ld l ib r b i) s (Faults s l T 10) ∧ Completes (.st l ib r b i) s (Faults s l T 10)) ∧
    (own →
      (a % 4 ≠ 0 → Completes (.ld l ib r b i) s (Faults s l T 6)) ∧
      (a % 4 ≠ 0 → overHeader (lane s l) a 4 = false → Completes (.st l ib r b i) s (Faults s l T 6)) ∧
      (overHeader (lane s l) a 4 = true → Completes (.st l ib r b i) s (Faults s l T 5)))

/-- PLD and PLDX read the entry of an own point as sel selects (R159, R160); the entry is the word M sees at
0x0060_0000 + 4 × p. Out of range, of no or another context's point, they fault in the order of R162. -/
def Obligations.PointLoads : Prop :=
  ∀ (s : State) (l : LaneId) (T : Task) (rd b : Reg) (p : BitVec 17) (sel : BitVec 4), Ready s l T →
    let e (q : Nat) : Word := seenWord s l (0x600000 + 4 * q)
    let reads (w : Word) : Word := match sel.toNat with
      | 0 => w
      | 1 => (w.extractLsb' 16 16).setWidth 32
      | 2 => (w.extractLsb' 16 16).signExtend 32
      | 3 => (w.extractLsb' 8 8).setWidth 32
      | 4 => (w.extractLsb' 0 8).setWidth 32
      | _ => (w.extractLsb' 16 1).setWidth 32
    sel.toNat ≤ 5 →
    (∀ i, pointInfo? (lane s l).cfg p.toNat = some i → i.ctx = T.ctx →
      Commits (.pld l rd p sel) l s (Writes s l T rd (reads (e p.toNat)) 1)) ∧
    (∀ i, (getX T b).toNat ≤ 131071 → pointInfo? (lane s l).cfg (getX T b).toNat = some i → i.ctx = T.ctx →
      Commits (.pldx l rd b sel) l s (Writes s l T rd (reads (e (getX T b).toNat)) 2)) ∧
    (131071 < (getX T b).toNat → Completes (.pldx l rd b sel) s (Faults s l T 2)) ∧
    ((∀ i, pointInfo? (lane s l).cfg p.toNat = some i → i.ctx ≠ T.ctx) → Completes (.pld l rd p sel) s (Faults s l T 3))

/-- PST and PSTX change the value field, bits [31:16], of an own output entry alone, clamped as sel says (R161); of an input
point they are a direction fault (R162). -/
def Obligations.PointStores : Prop :=
  ∀ (s : State) (l : LaneId) (T : Task) (r b : Reg) (p : BitVec 17) (sel : BitVec 4) (v : BitVec 16), Ready s l T →
    sel.toNat ≤ 2 →
    v = (match sel.toNat with
      | 0 => BitVec.ofInt 16 (max 0 (min 65535 (getX T r).toInt))
      | 1 => BitVec.ofInt 16 (max (-32768) (min 32767 (getX T r).toInt))
      | _ => if getX T r = 0 then 0 else 1) →
    let after (q x : Nat) : Byte :=
      if 0x600000 + 4 * q + 2 ≤ x ∧ x < 0x600000 + 4 * q + 4 then byteOf v (x - (0x600000 + 4 * q + 2)) else seen s l x
    (∀ i, pointInfo? (lane s l).cfg p.toNat = some i → i.ctx = T.ctx →
      (i.out = true → NoStaging s l (0x600000 + 4 * p.toNat + 2) 2 →
        Commits (.pst l r p sel) l s (StoresOn s l { T with pc := T.pc + 4 } 1 (after p.toNat))) ∧
      (i.out = false → Completes (.pst l r p sel) s (Faults s l T 4))) ∧
    (∀ i, (getX T b).toNat ≤ 131071 → pointInfo? (lane s l).cfg (getX T b).toNat = some i → i.ctx = T.ctx →
      (i.out = true → NoStaging s l (0x600000 + 4 * (getX T b).toNat + 2) 2 →
        Commits (.pstx l b r sel) l s (StoresOn s l { T with pc := T.pc + 4 } 2 (after (getX T b).toNat))) ∧
      (i.out = false → Completes (.pstx l b r sel) s (Faults s l T 4)))

/-! ## Function-block code: control flow -/

/-- The conditional branches go to the address of the branch plus 4 × imm12 when their condition holds, else to the next word
(R156); a bad target faults whether or not the condition holds (R158). -/
def Obligations.BranchesGoWhereTheirConditionSays : Prop :=
  ∀ (s : State) (l : LaneId) (T : Task) (a b : Reg) (i : BitVec 12) (tgt : Word), Ready s l T →
    tgt = T.pc + BitVec.ofInt 32 (4 * i.toInt) →
    (InCode tgt →
      Commits (.beq l a b i) l s (GoesOn s l { T with pc := if getX T a = getX T b then tgt else T.pc + 4 } 1) ∧
      Commits (.bne l a b i) l s (GoesOn s l { T with pc := if getX T a = getX T b then T.pc + 4 else tgt } 1) ∧
      Commits (.blt l a b i) l s
        (GoesOn s l { T with pc := if (getX T a).toInt < (getX T b).toInt then tgt else T.pc + 4 } 1) ∧
      Commits (.bge l a b i) l s
        (GoesOn s l { T with pc := if (getX T a).toInt < (getX T b).toInt then T.pc + 4 else tgt } 1) ∧
      Commits (.bltu l a b i) l s
        (GoesOn s l { T with pc := if (getX T a).toNat < (getX T b).toNat then tgt else T.pc + 4 } 1) ∧
      Commits (.bgeu l a b i) l s
        (GoesOn s l { T with pc := if (getX T a).toNat < (getX T b).toNat then T.pc + 4 else tgt } 1)) ∧
    (¬ InCode tgt →
      Completes (.beq l a b i) s (Faults s l T 9) ∧ Completes (.bne l a b i) s (Faults s l T 9) ∧
      Completes (.blt l a b i) s (Faults s l T 9) ∧ Completes (.bge l a b i) s (Faults s l T 9) ∧
      Completes (.bltu l a b i) s (Faults s l T 9) ∧ Completes (.bgeu l a b i) s (Faults s l T 9))

/-- JMP and JSR go to the address of the jump plus 4 × imm22; JSR pushes the return PC and the unchanged IB, and with 32
frames on the stack faults (R157, R158, R183). -/
def Obligations.JumpsAndSubroutines : Prop :=
  ∀ (s : State) (l : LaneId) (T : Task) (i : BitVec 22) (tgt : Word), Ready s l T →
    tgt = T.pc + BitVec.ofInt 32 (4 * i.toInt) →
    (InCode tgt → Commits (.jmp l i) l s (GoesOn s l { T with pc := tgt } 1)) ∧
    (¬ InCode tgt → Completes (.jmp l i) s (Faults s l T 9)) ∧
    (InCode tgt → T.stack.length < 32 →
      Commits (.jsr l i) l s (GoesOn s l { T with pc := tgt, stack := (T.pc + 4, T.ib) :: T.stack } 2)) ∧
    (32 ≤ T.stack.length → Completes (.jsr l i) s (Faults s l T 8))

/-- ICALL and ICALLR, when every check passes, push the return PC and the caller's IB, set IB to the target and PC to the
type's code address (R164, R165); a type mismatch, a misaligned ICALLR target and a type id above 12 bits are instance
faults. -/
def Obligations.InstanceCalls : Prop :=
  ∀ (s : State) (l : LaneId) (T : Task) (c : CtxCfg) (ty : BitVec 12) (off : BitVec 14) (x y : Reg) (a : Nat)
    (hdr code : Word), Ready s l T →
    ctxCfg? (lane s l).cfg T.ctx = some c → c.base + c.size ≤ 2 ^ 32 →
    c.base ≤ a → a + 16 ≤ c.base + c.size → hdr = seenWord s l a →
    code = BitVec.ofNat 32 (typeCode (lane s l).mem ty.toNat) →
    (hdr.toNat / 2 ^ 20 = ty.toNat → a + 16 * (hdr.toNat % 2 ^ 20) ≤ c.base + c.size → InCode code →
      T.stack.length < 32 →
      (a = T.ib.toNat + 16 * off.toNat →
        Commits (.icall l ty off) l s
          (GoesOn s l { T with pc := code, ib := BitVec.ofNat 32 a, stack := (T.pc + 4, T.ib) :: T.stack } 2)) ∧
      (a = (getX T x).toNat → a % 16 = 0 → getX T y = ty.setWidth 32 →
        Commits (.icallr l x y) l s
          (GoesOn s l { T with pc := code, ib := getX T x, stack := (T.pc + 4, T.ib) :: T.stack } 2))) ∧
    (hdr.toNat / 2 ^ 20 ≠ ty.toNat → a = T.ib.toNat + 16 * off.toNat →
      Completes (.icall l ty off) s (Faults s l T 7)) ∧
    ((getX T x).toNat % 16 ≠ 0 ∨ 4096 ≤ (getX T y).toNat → Completes (.icallr l x y) s (Faults s l T 7))

/-- RET restores PC and IB from the last frame and pops it; with an empty call stack it ends the run, for a cyclic task the
end of phase L, and a suspended task, if any, runs on (R140, R166). -/
def Obligations.ReturnsPopTheStack : Prop :=
  ∀ (s : State) (l : LaneId) (T : Task), Ready s l T →
    (∀ pc ib rest, T.stack = (pc, ib) :: rest →
      (InCode pc → Commits (.ret l) l s (GoesOn s l { T with pc := pc, ib := ib, stack := rest } 2)) ∧
      (¬ InCode pc → Completes (.ret l) s (Faults s l T 9))) ∧
    (T.stack = [] →
      Commits (.ret l) l s fun t =>
        OnlyLane l s t ∧ (lane t l).opsCount = (lane s l).opsCount + 2 ∧ (lane t l).mem = (lane s l).mem ∧
        (lane t l).outBuf = (lane s l).outBuf ∧
        (∀ u, (lane t l).cur = some u → u ∈ (lane s l).susp) ∧
        (∀ u ∈ (lane s l).susp, (lane t l).cur = some u ∨ u ∈ (lane t l).susp) ∧
        (T.mark = none → (ctxRun (lane t l) T.ctx).busy = false) ∧
        (∀ n, n ≠ T.ctx ∨ T.mark ≠ none → ctxRun (lane t l) n = ctxRun (lane s l) n))

/-! ## Function-block code: built-ins -/

/-- The elapsed time of R173 has reached PT. -/
def Sys2Proof.Machine.RanOut (now start : DWord) (pt : Word) : Bool :=
  start.toNat ≤ now.toNat && decide (pt.toNat ≤ now.toNat - start.toNat) || pt.toNat == 0

/-- TON, TOF and TP (R169-R173): Q, the remembered input, RUN, DONE and START after one evaluation, fresh or not; PT and
every byte outside the slot keep their values. -/
def Obligations.TimersEvaluate : Prop :=
  ∀ (s : State) (l : LaneId) (T : Task) (rd b : Reg) (i : BitVec 12) (a : Nat), Ready s l T →
    a = T.ib.toNat + 4 * i.toNat →
    let w := seenWord s l a
    let fresh : Bool := (seen s l a).toNat / 16 == 0
    let q := w.getLsbD 0
    let run := w.getLsbD 2
    let done := w.getLsbD 3
    let pt := seenWord s l (a + 4)
    let start := seenDouble s l (a + 8)
    let inp := (getX T b).getLsbD 0
    let prev := if fresh then inp else w.getLsbD 1
    let after (word : Word) (st : DWord) (x : Nat) : Byte :=
      if a ≤ x ∧ x < a + 4 then byteOf word (x - a)
      else if a + 8 ≤ x ∧ x < a + 16 then byteOf st (x - (a + 8)) else seen s l x
    let bit (v : Bool) : Word := if v then 1 else 0
    (SlotOk s l T a 16 8 1 →
      let st := if inp && (fresh || !prev) then T.now else start
      let q' := inp && RanOut T.now st pt
      Commits (.ton l rd b i) l s (Evaluates s l T rd (bit q') (after (firstWord q' inp run done 1) st))) ∧
    (SlotOk s l T a 16 8 2 →
      let st := if !inp && prev then T.now else start
      let runs := !inp && (prev || run)
      let out := runs && RanOut T.now st pt
      let q' := if runs then !out else if inp then true else if fresh then inp else q
      Commits (.tof l rd b i) l s
        (Evaluates s l T rd (bit q') (after (firstWord q' inp (runs && !out) (!inp && (out || done)) 2) st))) ∧
    (SlotOk s l T a 16 8 3 →
      let st := if inp && !prev && !run then T.now else start
      let starts := inp && !prev && !run
      let runs := run || starts
      let out := runs && RanOut T.now st pt
      let q' := if runs then !out else q
      let done' := (out || (done && !starts)) && (inp || (runs && !out))
      Commits (.tp l rd b i) l s
        (Evaluates s l T rd (bit q') (after (firstWord q' inp (runs && !out) done' 3) st)))

/-- TET returns the elapsed time of a timer, saturated to PT, and changes nothing but rd (R170, R174). -/
def Obligations.ElapsedTimeReads : Prop :=
  ∀ (s : State) (l : LaneId) (T : Task) (rd : Reg) (i : BitVec 12) (a kind : Nat), Ready s l T →
    a = T.ib.toNat + 4 * i.toNat → T.ib.toNat + 4 ≤ a →
    a + 16 ≤ T.ib.toNat + 16 * ((seenWord s l T.ib.toNat).toNat % 2 ^ 20) → a % 8 = 0 →
    kind = (seen s l a).toNat / 16 →
    let w := seenWord s l a
    let pt := seenWord s l (a + 4)
    let start := seenDouble s l (a + 8)
    let et : Word := BitVec.ofNat 32 (min pt.toNat (T.now.toNat - start.toNat))
    (kind = 0 → Commits (.tet l rd i) l s (Writes s l T rd 0 3)) ∧
    (kind = 1 → Commits (.tet l rd i) l s (Writes s l T rd (if w.getLsbD 1 then et else 0) 3)) ∧
    (kind = 2 ∨ kind = 3 →
      Commits (.tet l rd i) l s
        (Writes s l T rd (if w.getLsbD 2 then et else if w.getLsbD 3 then pt else 0) 3)) ∧
    (3 < kind → Completes (.tet l rd i) s (Faults s l T 11))

/-- CTU, CTD and CTUD (R177, R178): CV saturating, Q, QD and the remembered inputs; PV and every byte outside the slot keep
their values. -/
def Obligations.CountersEvaluate : Prop :=
  ∀ (s : State) (l : LaneId) (T : Task) (rd b : Reg) (i : BitVec 12) (a : Nat), Ready s l T →
    a = T.ib.toNat + 4 * i.toNat →
    let w := seenWord s l a
    let fresh : Bool := (seen s l a).toNat / 16 == 0
    let pv := seenWord s l (a + 4)
    let cv := seenWord s l (a + 8)
    let x0 := (getX T b).getLsbD 0
    let x1 := (getX T b).getLsbD 1
    let rises (x : Bool) (k : Nat) : Bool := x && !(if fresh then x else w.getLsbD k)
    let after (word v : Word) (x : Nat) : Byte :=
      if a ≤ x ∧ x < a + 4 then byteOf word (x - a)
      else if a + 8 ≤ x ∧ x < a + 12 then byteOf v (x - (a + 8)) else seen s l x
    let bit (v : Bool) : Word := if v then 1 else 0
    (SlotOk s l T a 12 4 4 →
      let v := if x1 then 0 else if rises x0 2 then clamp32 (cv.toInt + 1) else cv
      let q : Bool := pv.toInt ≤ v.toInt
      Commits (.ctu l rd b i) l s
        (Evaluates s l T rd (bit q) (after (firstWord q (w.getLsbD 1) x0 (w.getLsbD 3) 4) v))) ∧
    (SlotOk s l T a 12 4 5 →
      let v := if x1 then pv else if rises x0 3 then clamp32 (cv.toInt - 1) else cv
      let q : Bool := v.toInt ≤ 0
      Commits (.ctd l rd b i) l s
        (Evaluates s l T rd (bit q) (after (firstWord q (w.getLsbD 1) (w.getLsbD 2) x0 5) v))) ∧
    (SlotOk s l T a 12 4 6 →
      let up := rises x0 2
      let down := rises x1 3
      let v := if (getX T b).getLsbD 2 then 0 else if (getX T b).getLsbD 3 then pv
        else if up && !down then clamp32 (cv.toInt + 1) else if down && !up then clamp32 (cv.toInt - 1) else cv
      let q : Bool := pv.toInt ≤ v.toInt
      let qd : Bool := v.toInt ≤ 0
      Commits (.ctud l rd b i) l s
        (Evaluates s l T rd (bit q + 2 * bit qd) (after (firstWord q qd x0 x1 6) v)))

/-- RTRG, FTRG, SR and RS (R179): Q and the remembered clock; a fresh edge slot sees no edge, a fresh bistable keeps its Q1
(R171, R179). A slot of another kind is a slot-kind fault (R170). -/
def Obligations.EdgesAndBistablesEvaluate : Prop :=
  ∀ (s : State) (l : LaneId) (T : Task) (rd b : Reg) (i : BitVec 12) (a : Nat), Ready s l T →
    a = T.ib.toNat + 4 * i.toNat →
    let w := seenWord s l a
    let fresh : Bool := (seen s l a).toNat / 16 == 0
    let x0 := (getX T b).getLsbD 0
    let x1 := (getX T b).getLsbD 1
    let prev := if fresh then x0 else w.getLsbD 1
    let q := w.getLsbD 0
    let after (word : Word) (x : Nat) : Byte := if a ≤ x ∧ x < a + 4 then byteOf word (x - a) else seen s l x
    let bit (v : Bool) : Word := if v then 1 else 0
    (SlotOk s l T a 4 4 7 →
      Commits (.rtrg l rd b i) l s
        (Evaluates s l T rd (bit (x0 && !prev)) (after (firstWord (x0 && !prev) x0 false false 7)))) ∧
    (SlotOk s l T a 4 4 8 →
      Commits (.ftrg l rd b i) l s
        (Evaluates s l T rd (bit (!x0 && prev)) (after (firstWord (!x0 && prev) x0 false false 8)))) ∧
    (SlotOk s l T a 4 4 9 →
      Commits (.sr l rd b i) l s
        (Evaluates s l T rd (bit (x0 || (q && !x1))) (after (firstWord (x0 || (q && !x1)) false false false 9)))) ∧
    (SlotOk s l T a 4 4 10 →
      Commits (.rs l rd b i) l s
        (Evaluates s l T rd (bit (!x1 && (x0 || q))) (after (firstWord (!x1 && (x0 || q)) false false false 10)))) ∧
    (∀ k, SlotOk s l T a 4 4 k → k ≠ 0 → (seen s l a).toNat / 16 = k → k ≠ 7 →
      Completes (.rtrg l rd b i) s (Faults s l T 11))

/-- PMRD (R182): a forbidden-instruction fault in a vital context, an operand fault above 15; in a non-vital context the
counter's low or high part while task reads are open, and 0 at any other time. They are open in SERVICE, and after an activation
that is the only cause of RECOVERY from the end of its cycle's phase L in the lane (R453, R458, R517). A counter that counts only
what commands show reads as it stands. -/
def Obligations.CounterReadsOfTasks : Prop :=
  ∀ (s : State) (l : LaneId) (T : Task) (c : CtxCfg) (rd : Reg) (i : BitVec 12) (k : PerfCtr), Ready s l T →
    ctxCfg? (lane s l).cfg T.ctx = some c →
    (c.vital = true → ∀ high, Completes (.pmrd l rd i high) s (Faults s l T 10)) ∧
    (c.vital = false → 15 < i.toNat → ∀ high, Completes (.pmrd l rd i high) s (Faults s l T 13)) ∧
    (c.vital = false → (lane s l).ctrs.ctr.toList[i.toNat]? = some k →
      let service := (s.mod.activating = false ∧ s.mod.op = .service) ∨
        (s.mod.activating = true ∧ s.mod.op = .recovery ∧ activationIn (actRound s) (lane s l) = false ∧
          recovering { s with mod := { s.mod with activating := false } } = false)
      let isOpen := service ∧ (lane s l).selfTest.running = false ∧ s.grp.settings.pmuUser = true
      (isOpen → ∃ v : BitVec 48, (laneUnseen (lane s l) i.toNat = false → v = k.value) ∧
        Commits (.pmrd l rd i false) l s (Writes s l T rd (v.extractLsb' 0 32) 1) ∧
        Commits (.pmrd l rd i true) l s (Writes s l T rd ((v.extractLsb' 32 16).setWidth 32) 1)) ∧
      (¬ isOpen → ∀ high, Commits (.pmrd l rd i high) l s (Writes s l T rd 0 1)))

/-- FAIL is a requested fault and a word that decodes to no instruction an illegal-instruction fault (R145, R181): the
run ends, the context is in SAFE_FAULT with the cause, nothing is stored, and the record of the lane holds the fault
(R183, R184). -/
def Obligations.ContextFaultsEndTheRun : Prop :=
  ∀ (s : State) (l : LaneId) (T : Task) (a : Reg) (w : Word), Ready s l T →
    Completes (.fail l a) s (Faults s l T 12) ∧
    (decodeFbWord l w = none → Completes (.illegalInstruction l w) s (Faults s l T 1))

/-! ## Power, supply, temperature and the start -/

/-- POWER_GOOD starts a module that was held in reset; PWRGD low for at least 100 µs puts it back, below 20 µs is filtered,
between may do either (R542, R543, R520, R527); a power warning closes every journal, ends a running self-test as ABORTED and
stops the hub flash; what a lane would write meanwhile is deferred, so that the flash keeps what it held then; its end reopens the
journals (R49, R544). While PWRGD is low no other command does anything. -/
def Obligations.PowerComesAndGoes : Prop :=
  ∀ (s : State) (bench : Bool) (rails : Quad Bool) (cal : Duo Bool) (us : Nat) (i : Instr),
    (s.mod.pwrgd = false → (∀ a b c, i ≠ .powerGood a b c) → exec i s = .next s) ∧
    (s.mod.pwrgd = false →
      Completes (.powerGood bench rails cal) s fun t =>
        t.pending = s.pending ∧ t.mod.pwrgd = true ∧ t.mod.op = .startUp ∧ t.mod.benchSample = bench ∧
        t.grp.gst = .forming ∧ t.grp.seats = ⟨none, none, none⟩ ∧
        (∀ h, (hub t h).fwRunning = false ∧ (hub t h).running = false ∧ (hub t h).rpl = {} ∧ (hub t h).sev = {}) ∧
        (tile t .t0).calOk = cal.a ∧ (tile t .t1).calOk = cal.b ∧
        (∀ x, (tile t x).fieldUp = true ∧ (tile t x).cuffs.a.closed = false ∧ (tile t x).cuffs.b.closed = false) ∧
        ∀ l nv, nv = (lane s l).flashNv.getD (lane s l).nv →
          (lane t l).otp = (lane s l).otp ∧ (lane t l).mem = [] ∧ (lane t l).gatesOn = false ∧ (lane t l).flashNv = none ∧
          (lane t l).nv = { nv with startCount := nv.startCount + 1, closed := false } ∧
          (nv.retire ≠ 0 → (lane t l).st = .retired ∧ (lane t l).selfTest.running = false) ∧
          (nv.retire = 0 → (lane t l).supplyOk = quadGet rails l ∧ (lane t l).selfTest.running = quadGet rails l)) ∧
    (s.mod.pwrgd = true →
      (us < 20 → exec (.powerLoss us) s = .next s) ∧
      (100 ≤ us → Completes (.powerLoss us) s fun t =>
        t.pending = s.pending ∧ t.mod.pwrgd = false ∧ t.grp = {} ∧ t.tiles = ⟨{}, {}⟩ ∧
        ∀ l, (lane t l).nv = (lane s l).flashNv.getD (lane s l).nv ∧ (lane t l).otp = (lane s l).otp ∧ (lane t l).mem = []) ∧
      (20 ≤ us → us < 100 → Completes (.powerLoss us) s fun t =>
        t = { s with free := s.free + 1 } ∨ t.mod.pwrgd = false) ∧
      (us < 2 → exec (.pfailWarning us) s = .next s) ∧
      (10 ≤ us → Completes (.pfailWarning us) s fun t => t.mod.pfailN = false ∧
        (∀ l, (lane t l).journal = false ∧ ((lane s l).journal = true → (lane t l).nv.closed = true) ∧
          ((lane s l).selfTest.running = true → (lane t l).verdict = 6)) ∧ ∀ h, (hub t h).flashStop = true) ∧
      (10 ≤ us → (∀ l, (lane s l).selfTest.running = false) → Completes (.pfailWarning us) s fun t =>
        t = { s with mod := { s.mod with pfailN := false }, lanes := t.lanes, hubs := t.hubs } ∧
        (∀ l, ((lane s l).journal = true → lane t l = { lane s l with
            journal := false, nv := { (lane s l).nv with closed := true }, flashNv := some { (lane s l).nv with closed := true } }) ∧
          ((lane s l).journal = false → lane t l = lane s l)) ∧
        ∀ h, hub t h = { hub s h with flashStop := true }) ∧
      Completes .journalReopen s fun t =>
        t = { s with mod := { s.mod with pfailN := true }, lanes := t.lanes, hubs := t.hubs } ∧
        (∀ l, lane t l = if (lane s l).journal then lane s l
          else { lane s l with journal := true, flashNv := none, nv := { (lane s l).nv with closed := false } }) ∧
        ∀ h, ((hub s h).fwDue = none → hub t h = { hub s h with flashStop := false }) ∧
          ∀ v, (hub s h).fwDue = some v → (hub s h).fwRunning = true → (hub t h).fwFlash = v ∧ (hub t h).fwDue = none)

/-- The supply monitor never acts in its range or below 1 µs and always fences its lane beyond its limit from 10 µs on; the
third supply fence in 24 h retires the lane; in DOZE the retention rail is compared in place of the core rail; back in range
for 100 ms, the lane tests itself (R541, R496, R511, R31). -/
def Obligations.SupplyMonitor : Prop :=
  ∀ (s : State) (l : LaneId) (rail : Rail) (mv ns : Nat), s.mod.pwrgd = true →
    (RailInRange rail mv ∨ ns < 1000 ∨ ¬ RailWatched (lane s l).power rail → exec (.supplyExcursion l rail mv ns) s = .next s) ∧
    (RailOut rail mv → RailWatched (lane s l).power rail → 10000 ≤ ns → (lane s l).fenced = false → (lane s l).nv.retire = 0 →
      (supplyFences24 s l < 2 → Completes (.supplyExcursion l rail mv ns) s fun t =>
        FencedWith 3 (lane s l) (lane t l) ∧ (lane t l).supplyOk = false ∧ (lane t l).selfTest.running = false ∧
        (lane t l).nv.retire = 0) ∧
      (2 ≤ supplyFences24 s l → Completes (.supplyExcursion l rail mv ns) s fun t =>
        FencedWith 3 (lane s l) (lane t l) ∧ (lane t l).st = .retired ∧ (lane t l).nv.retire = 6)) ∧
    ((lane s l).supplyOk = false → (lane s l).nv.retire = 0 →
      exec (.supplyRecovery l) s = .next (setLane s l { lane s l with
        supplyOk := true, st := .selfTest, cur := none, susp := [], kCur := none,
        selfTest := { running := true, fenced := (lane s l).fenced, cmd := (lane s l).selfTest.cmd,
                      joiner := (lane s l).selfTest.joiner, tags := (lane s l).selfTest.tags } }))

/-- TALERT_N goes low when a die reaches its threshold, 120 °C within 3 K, and is released when every die is below 112 °C
(R559). -/
def Obligations.TemperatureAlert : Prop :=
  ∀ (s : State) (d : Die) (c : Int), s.mod.pwrgd = true →
    (123 ≤ c → Completes (.thermalAlert d c) s fun t =>
      t = { s with mod := { s.mod with talertN := t.mod.talertN, hot := t.mod.hot } } ∧
      t.mod.talertN = false ∧ d ∈ t.mod.hot ∧ ∀ e, e ≠ d → (e ∈ t.mod.hot ↔ e ∈ s.mod.hot)) ∧
    (112 ≤ c → c < 117 → exec (.thermalAlert d c) s = .next s) ∧
    (c < 112 → Completes (.thermalAlert d c) s fun t =>
      t = { s with mod := { s.mod with talertN := t.mod.talertN, hot := t.mod.hot } } ∧
      (∀ e, e ∈ t.mod.hot ↔ e ∈ s.mod.hot ∧ e ≠ d) ∧
      ((∀ e ∈ s.mod.hot, e = d) → t.mod.talertN = true) ∧
      (∀ e ∈ s.mod.hot, e ≠ d → t.mod.talertN = s.mod.talertN))

/-- The start: a hub's firmware runs with RUNNING 0 and no handles; the image vote is won by the image most voting lanes
hold; a voted lane loads its active bank; four eligible lanes form a FULL group with the highest lane as spare, fewer than
two end in SAFE with cause 4; with no integrated hub the round count is proposed from ROUND_HWM (R13, R445, R524, R375, R525,
R522). -/
def Obligations.StartSequence : Prop :=
  ∀ (s : State) (h : HubId) (l : LaneId) (ms : Nat) (win : BitVec 64), s.mod.pwrgd = true →
    ((hub s h).fwRunning = false → lossDue s h = false → Completes (.hubFirmwareLoaded h true) s fun t =>
      t.lanes = s.lanes ∧ t.tiles = s.tiles ∧ t.mod = s.mod ∧ hub t (peerHub h) = hub s (peerHub h) ∧
      (hub t h).fwRunning = true ∧ (hub t h).running = false ∧ (hub t h).enable = false ∧ (hub t h).evch = [] ∧
      (hub t h).maps = [] ∧ (hub t h).streams = [] ∧ (hub t h).lo.node = .listen ∧ (hub t h).hi.node = .listen ∧
      ∀ x ∈ t.grp.handles, x.server ≠ h) ∧
    (s.grp.gst = .forming → s.grp.voted = none → (∀ k, (lane s k).selfTest.running = false) →
      (∀ k ∈ voters s, (lane s k).nv.sess = none) → 2 ≤ votesFor s win →
      (∀ k ∈ voters s, activeImage (lane s k).nv = win ∨ votesFor s (activeImage (lane s k).nv) < votesFor s win) →
      Completes .imageVote s fun t =>
        t.grp = { s.grp with voted := some win,
                             voteKind := if votesFor s win = (voters s).length then 0 else 1 } ∧
        t.hubs = s.hubs ∧ t.tiles = s.tiles ∧ t.mod = s.mod ∧
        (∀ k, k ∉ voters s → lane t k = lane s k) ∧
        ∀ k ∈ voters s, activeImage (lane s k).nv = win → lane t k = { lane s k with imgOk := true }) ∧
    (s.grp.gst = .forming → (lane s l).imgOk = true → (lane s l).loaded = false → (lane s l).nv.retire = 0 →
      (lane s l).selfTest.running = false →
      exec (.imageLoadComplete l) s = .next (setLane s l (loadImage (lane s l)))) ∧
    (s.grp.gst = .forming → s.grp.voted.isSome → (∀ k, eligible s k = true) → (∀ k, (lane s k).nv.spareRec = none) →
      Completes (.groupFormation ms) s fun t =>
        t.grp.gst = .full ∧ t.grp.seats = ⟨some .l0, some .l1, some .l2⟩ ∧ t.grp.spare = some .l3 ∧
        (∀ k, k ≠ .l3 → (lane t k).st = .seated ∧ (lane t k).gatesOn = true) ∧ (lane t .l3).st = .sparePaired ∧
        t.mod.startMs = ms) ∧
    (s.grp.gst = .forming → s.grp.voted.isSome → (∀ k, (lane s k).selfTest.running = false) →
      (∀ k, (lane s k).imgOk = true → (lane s k).loaded = true ∨ (lane s k).nv.retire ≠ 0) →
      (∀ k, eligible s k = true → k = l) → s.grp.join = none → Completes (.groupFormation ms) s fun t =>
        t.grp.gst = .safe ∧ t.grp.safeCause = 4 ∧ t.mod.op = .safe ∧ t.grp.seats = ⟨none, none, none⟩ ∧
        ∀ k, (lane t k).gatesOn = false) ∧
    (s.grp.roundFixed = false → Runs s → s.grp.session = none → Completes .roundCountTimeout s fun t =>
      t = { s with grp := { s.grp with round := t.grp.round, roundFixed := true, roundSrc := 1 }, lanes := t.lanes } ∧
      (∀ k, lane t k = { lane s k with stn := (lane t k).stn }) ∧
      t.grp.round = BitVec.ofNat 64 ((roundHwm s + 65536 + 99) / 100 * 100))

/-! ## The pair: signature windows, split mode, self-tests -/

/-- A window closes after K has drained (R37, R40): with equal signatures and the injected value seen every byte reaches the
SRAM as M saw it; otherwise the stores are discarded and the lane fences for a pair mismatch; in split mode nothing is
compared (R41, R43, R45, R61). -/
def Obligations.SignatureWindows : Prop :=
  ∀ (s : State) (l : LaneId) (x : BitVec 64) (seenIt : Bool), s.mod.pwrgd = true →
    (lane s l).fenced = false → (lane s l).nv.retire = 0 → (lane s l).selfTest.running = false →
    memWf (lane s l).mem = true →
    let equal := (lane s l).sigM = (kRun (lane s l) 0 (lane s l).dq).sigK ^^^ x ∧ seenIt = true
    let released (t : State) : Prop :=
      OnlyLane l s t ∧ (∀ a, memGet (lane t l).mem a = seen s l a) ∧
      lane t l = { lane s l with mem := (lane t l).mem, outBuf := [], sigM := 0, sigK := 0, winOps := 0, dq := [],
                                 ctrs := (lane t l).ctrs, kCur := (lane t l).kCur, kHalted := (lane t l).kHalted }
    ((lane s l).st = .spareSplit → Completes (.signatureWindowClose l x seenIt) s released) ∧
    ((lane s l).st ≠ .spareSplit → equal → Completes (.signatureWindowClose l x seenIt) s released) ∧
    ((lane s l).st ≠ .spareSplit → ¬ equal → Completes (.signatureWindowClose l x seenIt) s fun t =>
      FencedWith 1 (lane s l) (lane t l) ∧ (lane t l).mismatch = min 255 ((lane s l).mismatch + 1) ∧
      (lane t l).selfTest.running = true ∧ (lane t l).sigM = 0 ∧ (lane t l).sigK = 0 ∧ (lane t l).dq = [])

/-- A paired spare splits 1 s after it became spare, with no join, revert or rotation pending; a task told to stop saves
itself or is dropped, and with the last one the lane is paired again, K with M's registers, and a join of it goes on; a task
that leaves its core's part is stopped and the others go on (R57-R61). -/
def Obligations.SplitMode : Prop :=
  ∀ (s : State) (l : LaneId) (work : List SplitTask) (k : SplitTask) (a : BitVec 32) (w : Bool) (j : Join),
    s.mod.pwrgd = true → (lane s l).dbg.halted = false →
    let after (f : SplitTask → SplitTask) : List SplitTask := (lane s l).split.map f
    (s.grp.spare = some l → (lane s l).st = .sparePaired → s.grp.join = none →
      (lane s l).fenced = false → (lane s l).nv.retire = 0 → (lane s l).selfTest.running = false →
      (lane s l).sigM = (kRun (lane s l) 0 (lane s l).dq).sigK →
      s.grp.rotDeferred = false → s.grp.revertDue ≠ some l → (lane s l).spareSince + 10000 ≤ s.grp.groupTime.toNat →
      (lane s l).nv.flagged = [] → Completes (.splitEntry l [] work) s fun t =>
        OnlyLane l s t ∧ (lane t l).st = .spareSplit ∧ (lane t l).power = .active ∧ (lane t l).outBuf = [] ∧
        (lane t l).dq = [] ∧ (∀ b, memWf (lane s l).mem = true → memGet (lane t l).mem b = seen s l b) ∧
        (lane t l).split = ((lane s l).split ++ work).map fun t => { t with status := .running }) ∧
    ((lane s l).st = .spareSplit → (lane s l).unsplit = true → k ∈ (lane s l).split → k.status = .running →
      (lane s l).splitPend = false → (∀ x, s.grp.join = some x → x.joiner ≠ l) →
      ((∃ j ∈ (lane s l).split, j.status = .running ∧ j.tid ≠ k.tid) →
        Completes (.splitTaskCheckpoint l k.tid) s fun t => OnlyLane l s t ∧ (lane t l).st = .spareSplit ∧
          (lane t l).split = after fun j => if j.tid = k.tid then { j with status := .saved } else j) ∧
      ((∀ j ∈ (lane s l).split, j.status = .running → j.tid = k.tid) →
        Completes (.splitTaskCheckpoint l k.tid) s fun t => OnlyLane l s t ∧ (lane t l).st = .sparePaired ∧
          (lane t l).unsplit = false ∧ (lane t l).kCur = (lane s l).cur ∧ (lane t l).dq = [] ∧
          ∀ j ∈ (lane t l).split, j.status = .saved) ∧
      Completes (.splitDropTimeout l) s fun t => (lane t l).st = .sparePaired ∧ (lane t l).unsplit = false ∧
        (lane t l).split = (lane s l).split.filter (fun j => j.status == .saved) ∧ t.grp = s.grp ∧ t.mod = s.mod ∧
        t.tiles = s.tiles ∧ ∀ o, o ≠ l → lane t o = lane s o) ∧
    ((lane s l).st = .spareSplit → (lane s l).unsplit = true → (lane s l).splitPend = false → s.grp.join = some j →
      j.joiner = l → j.step = 2 → Completes (.splitDropTimeout l) s fun t =>
        t.grp = { s.grp with join := some { j with step := 3 } } ∧ (lane t l).st = .joining ∧ (lane t l).unsplit = false) ∧
    ((lane s l).st = .spareSplit → (lane s l).unsplit = false →
      ((lane s l).split.find? fun t => t.tid == k.tid && t.status == .running) = some k →
      splitAllowed (lane s l) k.core a.toNat w = false → Completes (.splitTaskStop l k.tid a w) s fun t =>
        OnlyHubs { s with lanes := t.lanes } t ∧ (∀ o, o ≠ l → lane t o = lane s o) ∧
        lane t l = { lane s l with
          split := after fun j => if j.tid = k.tid then { j with status := .stopped } else j })

/-- The verdict of a full self-test judges each core on its own and then what the cores share, the oscillators
against each other among it; two late cores make it
verdict 4; TRANSIENT gives the lane back after a start, any other verdict but ABORTED retires it; the quick test lets a join go on or
fails it (R46, R47, R50, R84, R91). -/
def Obligations.SelfTests : Prop :=
  ∀ (s : State) (l : LaneId) (r : SelfTestResult) (v ms : Nat) (j : Join), s.mod.pwrgd = true →
    r.march = [] →
    let L := lane s l
    v = (if r.m ≠ some L.otp.expM ∨ L.selfTest.lateM = true then
           (if r.k ≠ some L.otp.expK ∨ L.selfTest.lateK = true then 4 else 2)
         else if r.k ≠ some L.otp.expK ∨ L.selfTest.lateK = true then 3
         else if r.shared = false ∨ r.otpOk = false ∨ 1000 < (r.rate0 - r.rate1).natAbs then 5 else 1) →
    (L.selfTest.running = true → L.nv.retire = 0 → s.grp.gst = .forming → L.tb.failed0 = false → L.tb.failed1 = false →
      L.selfTest.fenced = false →
      (v = 1 → Completes (.selfTestComplete l r) s fun t =>
        (lane t l).verdict = 1 ∧ (lane t l).fenced = false ∧ (lane t l).selfTest = {} ∧ (lane t l).nv.retire = 0 ∧
        (∀ o, o ≠ l → lane t o = lane s o) ∧ t.tiles = s.tiles ∧ t.mod = s.mod) ∧
      (v ≠ 1 → Completes (.selfTestComplete l r) s fun t =>
        (lane t l).verdict = v ∧ (lane t l).st = .retired ∧ (lane t l).nv.retire = 1 ∧ (lane t l).gatesOn = false)) ∧
    (L.selfTest.running = true → L.nv.retire = 0 →
      (L.selfTest.lateK = false → exec (.selfTestResultTimeout l .m) s =
        .next (setLane s l { L with selfTest := { L.selfTest with lateM := true } })) ∧
      (L.selfTest.lateM = false → exec (.selfTestResultTimeout l .k) s =
        .next (setLane s l { L with selfTest := { L.selfTest with lateK := true } })) ∧
      (L.selfTest.lateM = true → Completes (.selfTestResultTimeout l .k) s fun t =>
        (lane t l).verdict = 4 ∧ (lane t l).nv.retire = 1 ∧ (lane t l).st = .retired)) ∧
    (s.grp.join = some j → j.joiner = l → j.step = 3 →
      (InStep L → Completes (.quickTestComplete l true ms) s fun t =>
        t.grp = { s.grp with join := some { j with step := 4 }, transit := t.grp.transit } ∧
        StraitMsg.announce l ∈ t.grp.transit ∧ t.mod = s.mod ∧ t.tiles = s.tiles ∧
        ∀ o, o ≠ l → lane t o = lane s o) ∧
      Completes (.quickTestComplete l false ms) s fun t =>
        FencedWith 7 L (lane t l) ∧ (lane t l).selfTest.running = true ∧
        t.grp.joinFails = min 255 (s.grp.joinFails + 1) ∧ ∀ x, t.grp.join = some x → x.joiner ≠ l)

/-! ## Comparison, joins, reverts and rotation -/

/-- Contributions, the comparison and accusations (R73-R78, R45): an intact contribution of another seat is kept; a lane that
agrees with every seat goes on, one outvoted by each seat fences, one that agrees with a seat accuses the other once its window has
compared equal, in DEGRADED a disagreement is SAFE with cause 2; an accused seat
fences; a fenced sender is disregarded; a comparator that misses an injected disagreement is a pair mismatch; a strait goes to
its spare wire set first. -/
def Obligations.Comparison : Prop :=
  ∀ (s : State) (l k : LaneId) (st stk : SeatId) (cb mine : Contribution) (ctx : Nat) (cyc : BitVec 64) (share : BitVec 32),
    s.mod.pwrgd = true → seatOfLane s l = some st → (lane s l).fenced = false → (lane s l).nv.retire = 0 → l ≠ k →
    s.grp.join = none → linked s l k = true → mapOf s ctx cyc = s.grp.seats → mapOf s cb.ctx cb.cyc = s.grp.seats →
    (seatLane s.grp.seats cb.seat = some k → (lane s l).disregard.contains k = false →
      cb.code = contribCode (lane s l).cfg cb → ∀ relayed, Completes (.contributionReceived l cb relayed) s fun t =>
        OnlyLane l s t ∧ holdsContrib (lane t l) cb.ctx cb.cyc cb.seat = some cb ∧
        TakesIn { lane s l with contribs := (lane t l).contribs, resend := (lane t l).resend } (lane t l)) ∧
    (relayedPair s s.grp.seats st stk = true → seatLane s.grp.seats stk = some k →
      (holdsContrib (lane s l) ctx cyc stk) = none → ((lane s k).own.any fun c => c.ctx == ctx && c.cyc == cyc) = true →
      (lane s l).resend.contains (ctx, cyc, stk) = false → InStep (lane s l) → InStep (lane s k) →
      Completes (.contributionRetryTimeout l ctx cyc stk) s fun t =>
        StraitMsg.resend l stk ctx cyc ∈ t.grp.transit ∧
        (∀ c ∈ (lane s k).own, c.ctx = ctx → c.cyc = cyc → StraitMsg.contribution k c ∈ t.grp.transit) ∧ t.hubs = s.hubs ∧ t.tiles = s.tiles ∧
        (∀ o, o ≠ l → o ≠ k → lane t o = lane s o) ∧ WindowEnds { lane s l with resend := (lane t l).resend } (lane t l) ∧
        WindowEnds (lane s k) (lane t k)) ∧
    (((lane s l).own.find? fun x => x.ctx == ctx && x.cyc == cyc) = some mine → mine.seat = st → Runs s →
      (∀ o, (lane s o).dbg.halted = false) →
      let others := (otherSeats s.grp.seats st).filter (takesPart s s.grp.seats)
      let good := (agreeing (lane s l) s.grp.seats mine).filter (takesPart s s.grp.seats)
      let three := s.grp.gst ≠ .degraded ∧ (seatedLanes s.grp.seats).length ≠ 2
      ((∀ x ∈ others, x ∈ good) → others ≠ [] → Completes (.comparisonDeadline l ctx cyc) s fun t =>
        OnlyLane l s t ∧ lane t l = { lane s l with own := (lane t l).own, contribs := (lane t l).contribs }) ∧
      (∀ x y named, three → others.filter (fun z => !good.contains z) = [x] → good = [y] →
        (seatLane s.grp.seats x).bind (seatOfLane s) = some named → InStep (lane s l) → Completes (.comparisonDeadline l ctx cyc) s fun t =>
          StraitMsg.accuse l named false ∈ t.grp.transit) ∧
      (three → good = [] → others ≠ [] → Completes (.comparisonDeadline l ctx cyc) s fun t =>
        FencedWith 2 (lane s l) (lane t l) ∧ seatOf t.grp.seats l ≠ some st) ∧
      (s.grp.gst = .degraded → (∃ x ∈ others, x ∉ good) → Completes (.comparisonDeadline l ctx cyc) s fun t =>
        t.grp.gst = .safe ∧ t.grp.safeCause = 2 ∧ ∀ o, (lane t o).gatesOn = false)) ∧
    (isSeated s k = true → (lane s l).disregard.contains k = false → Runs s →
      Completes (.accusationReceived l k st false) s fun t =>
        FencedWith 2 (lane s l) (lane t l) ∧ seatOf t.grp.seats l ≠ some st) ∧
    (Completes (.fenceMessageReceived l k) s fun t =>
      OnlyLane l s t ∧ k ∈ (lane t l).disregard ∧
      TakesIn { lane s l with disregard := (lane t l).disregard, contribs := (lane t l).contribs } (lane t l)) ∧
    ((lane s l).prove = false → ∀ reported stationOk, exec (.comparatorProving l reported share stationOk) s = .next s) ∧
    (share = ((lane s l).cfg.knownAns[seatNum st - 1]?).getD 0 → (lane s l).prove = true → bgTurn s l 3 = true →
      exec (.comparatorProving l true share true) s = .next (setLane s l { lane s l with prove := false }) ∧
      (∀ reported stationOk, ¬ (reported = true ∧ stationOk = true) →
        Completes (.comparatorProving l reported share stationOk) s fun t =>
          FencedWith 1 (lane s l) (lane t l) ∧ (lane t l).mismatch = min 255 ((lane s l).mismatch + 1))) ∧
    (straitFailed s.grp l k = false →
      (s.grp.straitSpare.contains (straitOf l k) = false → Completes (.straitLinkFail l k) s fun t =>
        straitOf l k ∈ t.grp.straitSpare ∧ straitFailed t.grp l k = false ∧ t.lanes = s.lanes ∧ t.tiles = s.tiles) ∧
      (s.grp.straitSpare.contains (straitOf l k) = true → Completes (.straitLinkFail l k) s fun t =>
        straitFailed t.grp l k = true ∧ t.lanes = s.lanes ∧ t.tiles = s.tiles))

/-- The steps of a join: the sources are fixed when the joiner announces itself, a staged block leaves its source, the copied
ranges of the joiner, its tasks and its executive state are those of the join boundary, the caught-up joiner holds a source's state, and a joiner that is late
fails (R83-R91). -/
def Obligations.JoinSteps : Prop :=
  ∀ (s : State) (j : Join) (a b : LaneId) (blk : Nat), s.mod.pwrgd = true → s.grp.join = some j →
    (j.step = 4 → joinSources s j = some (a, b) →
      Completes (.joinAnnounceReceived j.joiner) s fun t =>
        t = { s with grp := { s.grp with join := some { j with step := 5, srcLo := some a, srcHi := some b } }, lanes := t.lanes } ∧
        ∀ o, TakesIn (lane s o) (lane t o) ∧ (isSeated s o = false → lane t o = lane s o)) ∧
    (j.step = 6 → blk ∈ j.staged → srcOf j blk = some a → (lane s a).wait = none →
      exec (.stagedStoreResume a blk) s = .next { s with grp := { s.grp with join := some { j with
        staged := j.staged.filter (· != blk), unsent := j.unsent.filter (· != blk) } } }) ∧
    (j.step = 6 →
      (∀ o, o ∈ j.srcLo ∨ o ∈ j.srcHi → (lane s o).wait = none) → Completes .joinCopyComplete s fun t =>
        OnlyLane j.joiner { s with grp := { s.grp with
          join := some { j with step := 7, unsent := [], staged := [], snap := [], snapTasks := [], snapExec := {} } } } t ∧
        (∀ x, memGet (lane t j.joiner).mem x =
          if 0x200000 ≤ x ∧ x < 0x680000 then memGet j.snap x else memGet (lane s j.joiner).mem x) ∧
        lane t j.joiner = { lane s j.joiner with
          mem := (lane t j.joiner).mem, outBuf := [], cur := none, susp := j.snapTasks, ctxs := j.snapExec.ctxs,
          fns := j.snapExec.fns, drvs := j.snapExec.drvs, stn := j.snapExec.stn, map := j.snapExec.map }) ∧
    (j.step = 7 → j.srcLo = some a → memWf (lane s a).mem = true →
      Completes .catchUpComplete s fun t =>
        OnlyLane j.joiner { s with grp := { s.grp with join := some { j with step := 8 } } } t ∧
        (lane t j.joiner).ctxs = (lane s a).ctxs ∧ (lane t j.joiner).cur = (lane s a).cur ∧
        (lane t j.joiner).susp = (lane s a).susp ∧ (lane t j.joiner).fns = (lane s a).fns ∧
        (lane t j.joiner).drvs = (lane s a).drvs ∧
        ∀ x, 0x200000 ≤ x → x < 0x680000 → memGet (lane t j.joiner).mem x = seen s a x) ∧
    (j.step ≤ 7 → Completes .catchUpDeadline s fun t =>
      FencedWith 7 (lane s j.joiner) (lane t j.joiner) ∧ (lane t j.joiner).selfTest.running = true ∧
      t.grp.joinFails = min 255 (s.grp.joinFails + 1)) ∧
    (7 < j.step → exec .catchUpDeadline s = .next s)

/-- A revert is made when its hold-off has run out, its two conditions hold and nothing delays it; a rotation that is due makes
the lane after the spare leave its seat, or is deferred (R93, R96, R97, R103). -/
def Obligations.RevertsAndRotations : Prop :=
  ∀ (s : State) (l k : LaneId), s.mod.pwrgd = true →
    let quiet := s.grp.join = none ∧ s.mod.op = .service ∧ activationSoon s = false ∧ anyHalted s = false ∧ s.grp.gst = .full
    (s.grp.holdoff.contains l = true → revertSeat s l = some k → mayJoinFor s l (some k) = true → quiet →
      Completes (.revertHoldoffExpiry l) s fun t =>
        ∃ j, t.grp.join = some j ∧ j.kind = .revert ∧ j.joiner = l ∧ j.leaver = some k ∧ t.mod.op = .recovery ∧
          t.grp.seats = s.grp.seats ∧ l ∉ t.grp.holdoff ∧ t.tiles = s.tiles ∧ t.hubs = s.hubs) ∧
    (s.grp.holdoff.contains l = true → revertSeat s l = none → Completes (.revertHoldoffExpiry l) s fun t =>
      t.grp.join = s.grp.join ∧ l ∉ t.grp.holdoff ∧ t.grp.revertDue = none ∧ (lane t l).prefSeat = 0 ∧
      t.tiles = s.tiles ∧ t.hubs = s.hubs ∧ t.mod = s.mod) ∧
    (rotationIsDue s = true → quiet → s.grp.holdoff = [] → s.grp.revertDue = none → s.grp.spare = some l →
      mayJoinFor s l (some k) = true → rotationLane s = some k → isSeated s k = true → Completes .rotationDue s fun t =>
        ∃ j, t.grp.join = some j ∧ j.kind = .rotation ∧ j.joiner = l ∧ j.leaver = some k ∧ t.mod.op = .recovery ∧
          t.grp.seats = s.grp.seats ∧ t.tiles = s.tiles ∧ t.hubs = s.hubs) ∧
    (rotationIsDue s = true → Runs s → rotationOk s = false →
      exec .rotationDue s = .next { s with grp := { s.grp with rotDeferred := true, rotD06 := false } }) ∧
    (rotationIsDue s = false → exec .rotationDue s = .next s)

/-! ## Time bases and scrub -/

/-- Time bases (R199-R202, R208-R211, R32-R34, R220): compensation follows the junction temperature as background work; the mark
of the reference gives the intervals, the offset and a steering of at most 100 ppm against it; the third boundary beyond 5 µs, or
a measurement no seated lane shares, fences with cause 4; a lane that agrees with one of two accuses the other; an oscillator
that drifts alone is marked failed, without a good one the lane fences; the pace is operations per active time. What a lane
reports leaves it once its window has compared equal. -/
def Obligations.TimeBases : Prop :=
  ∀ (s : State) (l k k' : LaneId) (h h' : HubId) (st : SeatId) (m0 m1 ns mine ticks eo po pt : Nat) (off c r0 r1 : Int),
    s.mod.pwrgd = true →
    let L := lane s l
    let rated : State := setLane s l { L with tb := { L.tb with rate0 := r0, rate1 := r1 } }
    let reports (B M : Lane) : Prop := ∃ N, TakesIn B N ∧ WindowEnds N M
    (bgTurn s l 0 = true → Completes (.tbCompensation l c) s fun t =>
      OnlyLane l s t ∧ -30000 ≤ (lane t l).tb.comp0 ∧ (lane t l).tb.comp0 ≤ 30000 ∧ -30000 ≤ (lane t l).tb.comp1 ∧
      (lane t l).tb.comp1 ≤ 30000 ∧
      lane t l = { L with temp := c, bgDone := tblSet L.bgDone 0 s.grp.groupTime.toNat,
                          tb := { L.tb with compTemp := c, comp0 := (lane t l).tb.comp0, comp1 := (lane t l).tb.comp1,
                                            rate := (if L.tb.onSpare then (lane t l).tb.comp1 else (lane t l).tb.comp0) +
                                              (L.cfg.trims[laneNum l]?).getD 0 + 10 * L.tb.rateCorr } }) ∧
    ((L.cur.isSome = true ∨ L.susp ≠ [] ∨ L.wait.isSome = true) → exec (.tbCompensation l c) s = .next s) ∧
    (s.grp.refIn = some h → (s.grp.refMix = false → InStep L) → Completes (.boundaryMarkReceived l (.hub h) m0 m1 off) s fun t =>
      OnlyLane l { s with free := t.free, hubs := t.hubs, grp := { s.grp with transit := t.grp.transit } } t ∧
      hub t h = { hub s h with markOut := (hub s h).markOut.filter (· != l) } ∧ hub t (peerHub h) = hub s (peerHub h) ∧
      reports { L with tb := (lane t l).tb } (lane t l) ∧
      (lane t l).tb.offset = off ∧ (lane t l).tb.rateCorr.natAbs ≤ 1000 ∧ (0 < off → 0 ≤ (lane t l).tb.rateCorr) ∧
      (off < 0 → (lane t l).tb.rateCorr ≤ 0) ∧
      (L.tb.resyncAt = none → L.tb.ref ≠ some .seat →
        (lane t l).tb.offRun = (if 500 < off.natAbs then L.tb.offRun + 1 else 0)) ∧
      (L.tb.ref = some .seat →
        (lane t l).tb.offRun = 0 ∧ (lane t l).tb.resyncAt = some s.grp.groupTime.toNat) ∧
      (s.grp.refMix = false → (lane t l).tb.meas0 = m0 ∧ (lane t l).tb.meas1 = m1 ∧
        StraitMsg.interval l (if L.tb.onSpare then m1 else m0) ∈ t.grp.transit)) ∧
    (s.grp.refIn ≠ some h' → s.grp.refMix = false → Completes (.boundaryMarkReceived l (.hub h') m0 m1 off) s fun t =>
      OnlyLane l (setHub s h' { hub s h' with markOut := (hub s h').markOut.filter (· != l) }) t ∧
      lane t l = { L with ctrs := (lane t l).ctrs }) ∧
    (s.grp.refIn = none → refLane s = some k →
      (l ≠ k → InStep L → Completes (.boundaryMarkReceived l .seat m0 m1 off) s fun t =>
        OnlyLane l { s with free := t.free, grp := { s.grp with transit := t.grp.transit } } t ∧
        reports { L with tb := (lane t l).tb } (lane t l) ∧
        (lane t l).tb.offset = off ∧ (lane t l).tb.rateCorr.natAbs ≤ 1000 ∧ (lane t l).tb.meas0 = m0 ∧
        (lane t l).tb.meas1 = m1 ∧ StraitMsg.interval l (if L.tb.onSpare then m1 else m0) ∈ t.grp.transit) ∧
      (l = k → InStep L → Completes (.boundaryMarkReceived l .seat m0 m1 off) s fun t =>
        OnlyLane l { s with grp := { s.grp with transit := t.grp.transit } } t ∧
        reports { L with tb := { L.tb with meas0 := if L.tb.onSpare then m0 else roundTicks s * 100000,
                                           meas1 := if L.tb.onSpare then roundTicks s * 100000 else m1,
                                           src := some .seat } } (lane t l) ∧
        StraitMsg.interval l (roundTicks s * 100000) ∈ t.grp.transit)) ∧
    (L.fenced = false → L.nv.retire = 0 →
      (3 ≤ L.tb.offRun → Completes (.boundaryOffsetFence l) s fun t => FencedWith 4 L (lane t l)) ∧
      (L.tb.offRun < 3 → exec (.boundaryOffsetFence l) s = .next s)) ∧
    (l ≠ k → L.disregard.contains k = false → linked s l k = true → Completes (.timeMeasurementReceived l k ns) s fun t =>
      OnlyLane l s t ∧ TakesIn { L with tb := (lane t l).tb } (lane t l) ∧
      tblGet (lane t l).tb.heard (laneNum k) = some ns) ∧
    (Runs s → L.fenced = false → L.nv.retire = 0 → (∀ o, (lane s o).dbg.halted = false) →
      ownMeas s l = some mine → isSeated s l = true →
      ((∀ o ∈ seated s, o ≠ l → o ∈ timeGood s l mine) → exec (.timeComparison l) s = .next s) ∧
      ((∃ o ∈ seated s, o ≠ l) → timeGood s l mine = [] → s.grp.gst ≠ .degraded →
        Completes (.timeComparison l) s fun t => FencedWith 4 L (lane t l)) ∧
      ((seated s).filter (fun o => o != l) = [k, k'] ∨ (seated s).filter (fun o => o != l) = [k', k] →
        timeGood s l mine = [k] → k ≠ k' → seatOfLane s k' = some st → s.grp.gst ≠ .degraded → InStep L →
        Completes (.timeComparison l) s fun t => StraitMsg.accuse l st true ∈ t.grp.transit) ∧
      ((∃ o ∈ seated s, o ≠ l ∧ o ∉ timeGood s l mine) → s.grp.gst = .degraded →
        Completes (.timeComparison l) s fun t => t.grp.gst = .safe ∧ t.grp.safeCause = 2)) ∧
    (L.nv.retire ≠ 0 → exec (.oscillatorCheck l r0 r1) s = .next rated) ∧
    (L.nv.retire = 0 → L.fenced = false →
      ((1000 < r0.natAbs ∨ L.tb.failed0 = true) → (1000 < r1.natAbs ∨ L.tb.failed1 = true) →
        Completes (.oscillatorCheck l r0 r1) s fun t => FencedWith 4 L (lane t l)) ∧
      (L.tb.failed0 = true → L.tb.failed1 = false → r1.natAbs ≤ 1000 → exec (.oscillatorCheck l r0 r1) s = .next rated) ∧
      (L.tb.failed1 = true → L.tb.failed0 = false → r0.natAbs ≤ 1000 → exec (.oscillatorCheck l r0 r1) s = .next rated) ∧
      (L.tb.failed0 = false → L.tb.failed1 = false →
        ((r0 - r1).natAbs ≤ 1000 → (r0.natAbs ≤ 1000 ∨ r1.natAbs ≤ 1000) →
          exec (.oscillatorCheck l r0 r1) s = .next rated) ∧
        (1000 < (r0 - r1).natAbs → r0.natAbs ≤ 1000 → 1000 < r1.natAbs → Completes (.oscillatorCheck l r0 r1) s fun t =>
          OnlyHubs { s with lanes := t.lanes } t ∧ (∀ o, o ≠ l → lane t o = lane s o) ∧
          (lane t l).tb.failed1 = true ∧ (lane t l).tb.failed0 = false ∧
          (lane t l).tb.switchDue = (L.tb.switchDue || L.tb.onSpare) ∧ (lane t l).fenced = false) ∧
        (1000 < (r0 - r1).natAbs → 1000 < r0.natAbs → r1.natAbs ≤ 1000 → Completes (.oscillatorCheck l r0 r1) s fun t =>
          OnlyHubs { s with lanes := t.lanes } t ∧ (∀ o, o ≠ l → lane t o = lane s o) ∧
          (lane t l).tb.failed0 = true ∧ (lane t l).tb.failed1 = false ∧
          (lane t l).tb.switchDue = (L.tb.switchDue || !L.tb.onSpare) ∧ (lane t l).fenced = false))) ∧
    (Completes (.paceMeasurement l ⟨ticks, eo⟩ po pt) s fun t =>
      OnlyLane l s t ∧ (lane t l).opsCount = 0 ∧
      (200000 ≤ ticks → (lane t l).pace = (L.opsCount + eo) * 20 / ticks) ∧
      (ticks < 200000 → (lane t l).pace = (L.opsCount + eo + po) * 20 / (ticks + pt)) ∧
      ((lane t l).pace < 470 → (lane t l).paceLow = true ∧ (lane t l).paceGood = 0) ∧
      (470 ≤ (lane t l).pace → (lane t l).paceGood = min 3 (L.paceGood + 1) ∧
        (lane t l).paceLow = (L.paceLow && decide ((lane t l).paceGood < 3))))

/-- The scrub and the daily flash check (R385-R388, R507, R508): a due step snapshots a region as M sees it in each seated
lane, and a lane's result leaves it once its window has compared equal; a self-test region gets the pattern in each 4 KiB
block not in use, and the blocks in use are recorded (which are in use and what the pattern is: free, log 52); a repair writes the
received bytes but to words stored since; a bank that agrees with its hash is left alone; a failed block moves to the next spare
and without one the lane retires. -/
def Obligations.ScrubAndFlash : Prop :=
  ∀ (s : State) (l k : LaneId) (bad : Quad (List Nat)) (v : BitVec 64) (good : Mem) (r blk : Nat) (why : FlashFault),
    s.mod.pwrgd = true →
    let L := lane s l
    let c := s.grp.scrub
    ((∃ o ∈ seated s, bgTurn s o 2 = false) → exec (.scrubStep bad) s = .next s) ∧
    (Runs s → s.grp.firstBoundary = true → c.active = false → c.nextAt ≤ s.grp.groupTime.toNat → s.grp.join = none →
      (∀ o ∈ seated s, bgTurn s o 2 = true) →
      c.region < 112 → (∀ o, memWf (lane s o).mem = true) → (∀ o ∈ seated s, InStep (lane s o)) → Completes (.scrubStep bad) s fun t =>
        t = { s with lanes := t.lanes, grp := { s.grp with scrub := { c with active := true, latest := c.region }, transit := t.grp.transit } } ∧
        ∀ o, (o ∉ seated s → lane t o = lane s o) ∧ (o ∈ seated s →
          WindowEnds { lane s o with scrub := (lane t o).scrub } (lane t o) ∧ (lane t o).scrub.region = some c.region ∧
          (lane t o).scrub.marked = [] ∧
          (∃ v, (lane t o).scrub.result = some v ∧ StraitMsg.scrub o v ∈ t.grp.transit) ∧ ∀ a, memGet (lane t o).scrub.snap a =
            if 0x10000 * c.region ≤ a ∧ a < 0x10000 * c.region + 0x10000 then seen s o a else 0)) ∧
    (Runs s → s.grp.firstBoundary = true → c.active = false → c.nextAt ≤ s.grp.groupTime.toNat → s.grp.join = none →
      (∀ o ∈ seated s, bgTurn s o 2 = true) → 112 ≤ c.region → c.region < 128 → (∀ o, quadGet bad o = []) →
      Completes (.scrubStep bad) s fun t =>
        t = { s with lanes := t.lanes, free := s.free + 1, grp := { s.grp with scrub := t.grp.scrub } } ∧
        t.grp.scrub.latest = c.region ∧ t.grp.scrub.region = (c.region + 1) % 128 ∧
        t.grp.scrub.pass = (if c.region = 127 then c.pass + 1 else c.pass) ∧
        ∀ o, (o ∉ runningLanes s → lane t o = lane s o) ∧ (o ∈ runningLanes s →
          (lane t o).mem = (lane s o).mem ∧
          (∀ b, b ∈ (lane t o).inUse ↔ 16 * c.region ≤ b ∧ b < 16 * c.region + 16 ∧
            Config.blockInUse s.free (laneNum o) b = true) ∧
          ∀ a, seen t o a =
            if 0x10000 * c.region ≤ a ∧ a < 0x10000 * c.region + 0x10000 ∧ a / 4096 ∉ (lane t o).inUse
            then byteOf (Config.testWord (a - a % 4)) (a % 4) else seen s o a)) ∧
    (l ≠ k → L.disregard.contains k = false → linked s l k = true → Completes (.scrubResultReceived l k v) s fun t =>
      OnlyLane l s t ∧ TakesIn { L with scrub := (lane t l).scrub } (lane t l) ∧
      tblGet (lane t l).scrub.heard (laneNum k) = some v) ∧
    (L.scrub.repair = some (k, good) → L.scrub.region = some r →
      ((lane s k).fenced = true →
        exec (.scrubRepairReceived l) s = .next (setLane s l { L with scrub := { L.scrub with repair := none } })) ∧
      ((lane s k).fenced = false → Completes (.scrubRepairReceived l) s fun t =>
        let T := lane t l
        OnlyLane l s t ∧
        T = { L with power := T.power, outBuf := T.outBuf, sigM := T.sigM, sigK := T.sigK, dq := T.dq, kCur := T.kCur, kHalted := T.kHalted,
                     ctrs := T.ctrs, scrub := {} } ∧
        ∀ a, seen t l a =
          if 0x10000 * r ≤ a ∧ a < 0x10000 * r + 0x10000 ∧ L.scrub.marked.contains (a / 4) = false
          then memGet good a else seen s l a)) ∧
    (L.nv.retire = 0 →
      let hashed : Lane := { L with bgDone := tblSet L.bgDone 4 s.grp.groupTime.toNat }
      (bgTurn s l 4 = false → exec (.flashImageHash l) s = .next s) ∧
      (bgTurn s l 4 = true → bankHashOk L.nv.bankA = true → bankHashOk L.nv.bankB = true →
        exec (.flashImageHash l) s = .next (setLane s l hashed)) ∧
      (bgTurn s l 4 = true → Completes (.flashImageHash l) s fun t =>
        OnlyHubs { s with lanes := t.lanes } t ∧ (∀ o, o ≠ l → lane t o = lane s o) ∧
        lane t l = { hashed with nv := { L.nv with bankA := (lane t l).nv.bankA, bankB := (lane t l).nv.bankB } }) ∧
      (blk < 512 → L.nv.spareUsed < 96 → Completes (.flashBlockFailure l blk why) s fun t =>
        OnlyHubs { s with lanes := t.lanes } t ∧ (∀ o, o ≠ l → lane t o = lane s o) ∧
        lane t l = { L with nv := { L.nv with repairs := tblSet L.nv.repairs blk (416 + L.nv.spareUsed),
                                              spareUsed := L.nv.spareUsed + 1 } }) ∧
      (blk < 512 → 96 ≤ L.nv.spareUsed → Completes (.flashBlockFailure l blk why) s fun t =>
        (lane t l).nv.retire = 4 ∧ (lane t l).st = .retired ∧ (lane t l).gatesOn = false))

/-! ## Power states, records, scans, counters, debugger -/

/-- An idle lane enters the deepest power state that fits the time to its next event; a wake makes it ACTIVE, but a halted lane is
in PAUSE; an idle hub block is gated; records are background work and follow their intervals (R492-R500, R502-R505). -/
def Obligations.PowerStatesAndRecords : Prop :=
  ∀ (s : State) (l : LaneId) (h : HubId) (b : HubBlock) (te : Nat) (m : LaneMeasures) (w : WearFit) (hm : HubMeasures),
    s.mod.pwrgd = true →
    let L := lane s l
    let hubGated (t : State) : Prop :=
      hub t h = { hub s h with gated := (hub t h).gated, ctrs := (hub t h).ctrs, ctrOwed := (hub t h).ctrOwed } ∧
        (b ≠ .firmware → hub t h = { hub s h with gated := (hub t h).gated })
    (mayRest s l = false → L.dbg.halted = false → exec (.powerStateEntry l te) s = .next s) ∧
    (mayRest s l = true → L.nv.retire = 0 → L.dbg.halted = false → L.fenced = false → L.st ≠ .spareSplit →
      L.sigM ≠ (kRun L 0 L.dq).sigK → Completes (.powerStateEntry l te) s fun t => FencedWith 1 L (lane t l)) ∧
    (mayRest s l = true → L.nv.retire = 0 → L.dbg.halted = false → L.fenced = false →
      (L.st = .spareSplit ∨ L.sigM = (kRun L 0 L.dq).sigK) → Completes (.powerStateEntry l te) s fun t =>
      OnlyLane l { s with free := t.free } t ∧
      lane t l = { L with power := (lane t l).power, mem := (lane t l).mem, outBuf := [], sigM := 0, sigK := 0, winOps := 0,
                          dq := [], ctrs := (lane t l).ctrs, kCur := (lane t l).kCur, kHalted := (lane t l).kHalted } ∧
      (memWf L.mem = true → ∀ a, seen t l a = seen s l a) ∧
      (te < 12 → (lane t l).power = .pause) ∧ (12 ≤ te → te < 82 → (lane t l).power = .nap) ∧
      (82 ≤ te → (lane t l).power = .nap ∨ ((lane t l).power = .doze ∧ L.unlocked = false))) ∧
    (L.nv.retire = 0 → L.dbg.halted = true → exec (.powerStateEntry l te) s = .next (setLane s l { L with power := .pause })) ∧
    exec (.laneWake l) s = .next (setLane s l { L with power := if L.dbg.halted then .pause else .active }) ∧
    (blockIdle s h b = true → Completes (.hubClockGate h b true) s fun t =>
      OnlyHubs s t ∧ hub t (peerHub h) = hub s (peerHub h) ∧ hubGated t ∧
      ∀ x, x ∈ (hub t h).gated ↔ x = b ∨ x ∈ (hub s h).gated) ∧
    (blockIdle s h b = false → exec (.hubClockGate h b true) s = .next s) ∧
    (Completes (.hubClockGate h b false) s fun t =>
      OnlyHubs s t ∧ hub t (peerHub h) = hub s (peerHub h) ∧ hubGated t ∧
      ∀ x, x ∈ (hub t h).gated ↔ x ≠ b ∧ x ∈ (hub s h).gated) ∧
    (tlmTurn s l = false → exec (.lanePeriodicRecord l m) s = .next s ∧ exec (.wearRecord l w) s = .next s) ∧
    (tlmTurn s l = true → Completes (.lanePeriodicRecord l m) s fun t =>
      OnlyHubs { s with lanes := t.lanes } t ∧ (∀ o, o ≠ l → lane t o = lane s o) ∧
      lane t l = { L with temp := m.tempC, vcore := m.vcoreMv, tlmStep := (lane t l).tlmStep,
                          tlmCalm := if m.backlog then 0 else L.tlmCalm + L.tlmStep } ∧
      (m.backlog = false → (lane t l).tlmStep = L.tlmStep) ∧
      (m.backlog = true → L.tlmStep = 1 → (lane t l).tlmStep = 2) ∧
      (m.backlog = true → L.tlmStep = 2 → (lane t l).tlmStep = 5) ∧
      (m.backlog = true → L.tlmStep = 5 → (lane t l).tlmStep = 10) ∧
      (m.backlog = true → L.tlmStep = 10 → (lane t l).tlmStep = 10)) ∧
    (60 ≤ L.tlmCalm → 1 < L.tlmStep → Completes (.telemetryIntervalRestore l) s fun t =>
      OnlyHubs { s with lanes := t.lanes } t ∧ (∀ o, o ≠ l → lane t o = lane s o) ∧
      lane t l = { L with tlmStep := (lane t l).tlmStep, tlmCalm := 0 } ∧
      (L.tlmStep = 2 → (lane t l).tlmStep = 1) ∧ (L.tlmStep = 5 → (lane t l).tlmStep = 2) ∧
      (L.tlmStep = 10 → (lane t l).tlmStep = 5)) ∧
    (L.tlmCalm < 60 → exec (.telemetryIntervalRestore l) s = .next s) ∧
    (tlmTurn s l = true → Completes (.wearRecord l w) s fun t =>
      OnlyHubs { s with lanes := t.lanes } t ∧ (∀ o, o ≠ l → lane t o = lane s o) ∧
      lane t l = { L with nv := { L.nv with paceDays := L.nv.paceDays ++ [w.paceNormDay], hours := w.hours, eraseMax := w.eraseMax } }) ∧
    (Completes (.hubPeriodicRecord h hm) s fun t => OnlyHubs s t ∧ (hub t h).replays = hm.replays)

/-- GO runs a scan of an idle channel, or ends it at once in ERROR for its range, length or fold, a lane's channels 0-2 with the key
of the sealed configuration; while BUSY it is ignored; ABORT and a failed host read end a scan in ERROR with result 0, and the
latter raises vector 3; a complete scan holds its CRC (R376-R382, R425, R446). -/
def Obligations.ValuzScans : Prop :=
  ∀ (s : State) (l : LaneId) (h : HubId) (ch : Nat) (c : ValuzChan) (data : List (BitVec 8)), s.mod.pwrgd = true →
    let L := lane s l
    let H := hub s h
    let put (x : ValuzChan) : State := setLane s l { L with valuz := L.valuz.setIfInBounds ch x }
    let hubDone (x : ValuzChan) (busy : Bool) (t : State) : Prop :=
      t = setHub s h { H with valuz := H.valuz.setIfInBounds ch x, pools := (hub t h).pools, gated := (hub t h).gated,
                              ctrs := (hub t h).ctrs, ctrOwed := (hub t h).ctrOwed } ∧
      (ch ≠ 3 → t = setHub s h { H with valuz := H.valuz.setIfInBounds ch x }) ∧
      (ch = 3 → (hub t h).pools = { H.pools with bulk := (hub t h).pools.bulk } ∧
        (hub t h).pools.bulk.reads = busy.toNat ∧ (busy = false → (hub t h).pools.bulk.space = 0))
    let began : ValuzChan := { c with scanId := c.scanId + 1, err := 0, result := 0 }
    let keyed : ValuzChan := { began with key := if ch < 3 then laneScanKey L c else c.key }
    let inRange := ch = 3 ∨ Config.hubScanOk c.start c.length = true
    let lenOk := c.length ≠ 0 ∧ c.length.toNat ≤ 0x800000
    (L.valuz.toList[ch]? = some c →
      (c.st = .busy →
        exec (.valuzGo (.lane l) ch) s = .next s ∧
        exec (.valuzAbort (.lane l) ch) s = .next (put { c with st := .error, err := 3, result := 0 }) ∧
        exec (.valuzScanComplete (.lane l) ch data true) s = .next (put { c with
          st := .done, err := 0, result := valuzResult c (memBytes L.mem c.start.toNat c.length.toNat) })) ∧
      (c.st ≠ .busy →
        exec (.valuzAbort (.lane l) ch) s = .next s ∧
        (laneScanOk L ch (L.cur.map (·.ctx)) = false →
          exec (.valuzGo (.lane l) ch) s = .next (put { keyed with st := .error, err := 1 })) ∧
        (laneScanOk L ch (L.cur.map (·.ctx)) = true →
          (¬ lenOk → exec (.valuzGo (.lane l) ch) s = .next (put { keyed with st := .error, err := 2 })) ∧
          (lenOk → c.fold = 3 → exec (.valuzGo (.lane l) ch) s = .next (put { keyed with st := .error, err := 4 })) ∧
          (lenOk → c.fold ≠ 3 → exec (.valuzGo (.lane l) ch) s = .next (put { keyed with st := .busy }))))) ∧
    (hubChanUp H ch = false → exec (.valuzGo (.hub h) ch) s = .next s ∧ exec (.valuzAbort (.hub h) ch) s = .next s) ∧
    (H.valuz.toList[ch]? = some c → hubChanUp H ch = true →
      (c.st ≠ .busy → ¬ inRange →
        Completes (.valuzGo (.hub h) ch) s (hubDone { began with st := .error, err := 1 } false)) ∧
      (c.st ≠ .busy → inRange → lenOk → c.fold ≠ 3 →
        Completes (.valuzGo (.hub h) ch) s (hubDone { began with st := .busy } true)) ∧
      (c.st ≠ .busy → inRange → ¬ lenOk →
        Completes (.valuzGo (.hub h) ch) s (hubDone { began with st := .error, err := 2 } false)) ∧
      (c.st ≠ .busy → inRange → lenOk → c.fold = 3 →
        Completes (.valuzGo (.hub h) ch) s (hubDone { began with st := .error, err := 4 } false)) ∧
      (c.st ≠ .busy → exec (.valuzAbort (.hub h) ch) s = .next s) ∧
      (c.st = .busy →
        exec (.valuzGo (.hub h) ch) s = .next s ∧
        Completes (.valuzAbort (.hub h) ch) s (hubDone { c with st := .error, err := 3, result := 0 } false) ∧
        Completes (.valuzScanComplete (.hub h) ch data true) s (hubDone { c with
          st := .done, err := 0, result := valuzResult c (sliceBytes data 0 c.length.toNat) } false) ∧
        (ch = 3 → Completes (.valuzScanComplete (.hub h) ch data false) s fun t =>
          OnlyHubs s t ∧ (hub t h).pools.bulk.reads = 0 ∧ (hub t h).valuz.toList[ch]? = some { c with st := .error, err := 5, result := 0 } ∧
          (hub t h).counts.dmaError = satInc H.counts.dmaError ∧ (hub t h).vecs = (raiseVec H 3).vecs)))

/-- A counter's overflow (R455-R457): a sample that is owed, of the event's own master and within the skid, is written as the
record of R503, up to 1,000 of a lane in a second, above that it is dropped and counted; a counter at its last value, or one whose
count no command tells (log 80), wraps: OVF is set, it goes on from 0, or with OVF_SAMPLE from its reload with a sample of its own,
and a chained counter above it goes on by one. -/
def Obligations.CounterOverflows : Prop :=
  ∀ (s : State) (l : LaneId) (h : HubId) (n : Nat) (op : SampleOp) (c d : PerfCtr), s.mod.pwrgd = true →
    let L := lane s l
    let C := L.ctrs
    let H := hub s h
    let fits := 2 ≤ op.master ∨ op.skid ≤ 6 ∨ (inSplit L = true ∧ op.skid ≤ 9)
    let mine (o : Nat × Option Nat) : Prop := o.1 = n ∧ (o.2 = none ∨ o.2 = some op.master)
    let sampled (D : LaneCtrs) (t : State) : Prop :=
      (D.samples < 1000 → t = tlm (setLane s l { L with ctrs := { D with samples := D.samples + 1, dropped := 0 } })
        (laneNum l) 2 (sampleBody n op true D.dropped) true) ∧
      (1000 ≤ D.samples → t = setLane s l { L with ctrs := { D with dropped := D.dropped + 1 } })
    let hubSampled (K : Hub) (t : State) : Prop := t = tlm (setHub s h K) (4 + hubNum h) 2 (sampleBody n op false 0) true
    let wrapped (x : PerfCtr) (b : Nat) : PerfCtr := { x with value := if x.sel.getLsbD b then x.reload else 0, ovf := true }
    (¬ fits → exec (.counterOverflow (.lane l) n op) s = .next s) ∧
    (fits → (∃ o ∈ C.owed, mine o) → Completes (.counterOverflow (.lane l) n op) s fun t =>
      ∃ o ∈ C.owed, mine o ∧ sampled { C with owed := C.owed.erase o } t) ∧
    (fits → (∀ o ∈ C.owed, o.1 ≠ n) → L.st ≠ .retired → C.ctr.toList[n]? = some c → c.sel.getLsbD 22 = true →
      chainedTo C.ctr.toList laneBits n = false → (c.value = BitVec.allOnes 48 ∨ laneUnseen L n = true) →
      let D : LaneCtrs := { C with ctr := C.ctr.setIfInBounds n (wrapped c 24) }
      (chainedTo C.ctr.toList laneBits (n + 1) = false →
        (c.sel.getLsbD 24 = false → exec (.counterOverflow (.lane l) n op) s = .next (setLane s l { L with ctrs := D })) ∧
        (c.sel.getLsbD 24 = true → Completes (.counterOverflow (.lane l) n op) s (sampled D))) ∧
      (chainedTo C.ctr.toList laneBits (n + 1) = true → C.ctr.toList[n + 1]? = some d → d.value ≠ BitVec.allOnes 48 →
        let carried := D.ctr.setIfInBounds (n + 1) { d with value := d.value + 1 }
        let E : LaneCtrs := { D with ctr := if d.sel.getLsbD 22 then carried else D.ctr }
        (c.sel.getLsbD 24 = false → exec (.counterOverflow (.lane l) n op) s = .next (setLane s l { L with ctrs := E })) ∧
        (c.sel.getLsbD 24 = true → Completes (.counterOverflow (.lane l) n op) s (sampled E)))) ∧
    (H.ctrOwed.contains n = true → Completes (.counterOverflow (.hub h) n op) s
      (hubSampled { H with ctrOwed := H.ctrOwed.erase n })) ∧
    (H.ctrOwed.contains n = false → H.ctrs.toList[n]? = some c → c.sel.getLsbD 16 = true →
      chainedTo H.ctrs.toList hubBits n = false → chainedTo H.ctrs.toList hubBits (n + 1) = false →
      (c.value = BitVec.allOnes 48 ∨ hubUnseen H n = true) →
      let K : Hub := { H with ctrs := H.ctrs.setIfInBounds n (wrapped c 18) }
      (c.sel.getLsbD 18 = false → exec (.counterOverflow (.hub h) n op) s = .next (setHub s h K)) ∧
      (c.sel.getLsbD 18 = true → Completes (.counterOverflow (.hub h) n op) s (hubSampled K)))

/-- The test access port (R52-R56, R546): IDCODE and BYPASS answer in every operating state; the debugger reaches a lane in
BENCH alone, and only an unlocked one; a halt ends the open window, and K drains and halts at the same operation; step, resume,
register and memory writes stand in the delay queue for K to replay; a memory write waits in the outbound buffer like a store,
signed by both cores. -/
def Obligations.TestAccessPort : Prop :=
  ∀ (s : State) (l : LaneId) (v a : BitVec 32) (reg : DebugReg) (T : Task), s.mod.pwrgd = true →
    let L := lane s l
    let D : State := { s with mod := { s.mod with tap := .debug } }
    let reach := s.mod.op = .bench ∧ L.unlocked = true
    let quiet := L.fenced = true ∨ L.nv.retire ≠ 0 ∨ L.selfTest.running = true ∨ L.st = .spareSplit ∨
      L.sigM = (kRun L 0 L.dq).sigK
    let halts (b t : State) : Prop := OnlyLane l b t ∧ (lane t l).dbg = { L.dbg with halted := true, stepArm := false } ∧ (lane t l).power = .pause ∧
      (lane t l).kHalted = true ∧ (lane t l).dq = [] ∧ (lane t l).st = L.st ∧ (lane t l).cur = L.cur ∧
      (L.nv.retire = 0 → shownSt (lane t l) = .halted) ∧ (memWf L.mem = true → ∀ x, seen t l x = seen s l x)
    let queues (act : DqAct) (t : State) : Prop :=
      dqOps L.dq < 32 → ∃ e, (lane t l).dq = L.dq ++ [e] ∧ e.act = act ∧ e.ops = 0
    (exec .idcode s = .next { s with mod := { s.mod with tap := .idcode, tdo := 0x12403B0F } }) ∧
    (exec .bypass s = .next { s with mod := { s.mod with tap := .bypass, tdo := 0 } }) ∧
    (¬ reach → ∀ c ∈ [Instr.debugHalt l, .debugStep l, .debugResume l, .debugRegisterWrite l reg v,
      .debugMemoryWrite l a v, .debugBreakpointSet l a, .breakpointHit l], exec c s = .next s) ∧
    (reach →
      (L.dbg.halted = false → quiet → Completes (.debugHalt l) s (halts D)) ∧
      (L.dbg.halted = false → ¬ quiet → Completes (.debugHalt l) s fun t =>
        FencedWith 1 L (lane t l) ∧ (lane t l).dbg.halted = false) ∧
      (L.dbg.halted = true →
        (Completes (.debugStep l) s fun t =>
          OnlyLane l D t ∧ (lane t l).dbg = { L.dbg with stepArm := true } ∧ (lane t l).cur = L.cur ∧
          (lane t l).mem = L.mem ∧ (lane t l).outBuf = L.outBuf ∧ (lane t l).sigM = L.sigM ∧ queues .step t) ∧
        Completes (.debugResume l) s fun t => (lane t l).dbg = { L.dbg with halted := false, stepArm := false } ∧
          t.mod.tap = .debug ∧ (lane t l).cur = L.cur ∧ (memWf L.mem = true → ∀ x, seen t l x = seen s l x)) ∧
      (L.cur = some T → Completes (.debugRegisterWrite l reg v) s fun t =>
        OnlyLane l D t ∧ (lane t l).outBuf = L.outBuf ∧ (lane t l).mem = L.mem ∧ queues (.reg reg v) t ∧
        ∃ U, (lane t l).cur = some U ∧ match reg with
          | .pc => U = { T with pc := v }
          | .ib => U = { T with ib := v }
          | .x r => U = { T with x := U.x } ∧ ∀ q, getX U q = if q = r ∧ r ≠ 0 then v else getX T q) ∧
      (a.toNat + 4 ≤ 0x800000 → s.grp.join = none → Completes (.debugMemoryWrite l a v) s fun t =>
        OnlyLane l D t ∧ (lane t l).mem = L.mem ∧ (lane t l).cur = L.cur ∧
        (lane t l).sigM = Config.sigFold L.sigM 0 (a ++ v) ∧
        (dqOps L.dq < 32 → ∃ e, (lane t l).dq = L.dq ++ [e] ∧ e.items = [(0, a ++ v)]) ∧
        ∀ x, seen t l x = if a.toNat ≤ x ∧ x < a.toNat + 4 then byteOf v (x - a.toNat) else seen s l x) ∧
      (L.dbg.bps.length < 4 → L.dbg.bps.contains a = false → exec (.debugBreakpointSet l a) s =
        .next (setLane D l { L with dbg := { L.dbg with bps := L.dbg.bps ++ [a] } })) ∧
      (L.cur = some T → L.dbg.bps.contains T.pc = true → L.dbg.halted = false → quiet →
        Completes (.breakpointHit l) s (halts s)))

/-! ## The round and the cycle -/

/-- A round boundary starts the next round and advances group time by the round length; the first one starts the round its
count was fixed to; a higher count of the bus is taken over (R115, R204, R279, R522). An output point publishes what is ready
and makes what is not late, the second time in a row SAFE_OVERRUN for a vital context (R126-R129), and a context that is not RUNNING publishes its safe values there (R183); each seat's downlink build carries its
gate command frames, with the count of the round in which they are sent (R114, R312); a cycle mark starts its task, faults at
its start check or counts a skip (R120-R122, R139). -/
def Obligations.RoundsAndCycles : Prop :=
  ∀ (s : State) (n k : Nat) (x : CtxCfg) (m : MarkCfg), s.mod.pwrgd = true →
    (s.grp.roundFixed = true → Completes .roundBoundary s fun t =>
      let r0 := if s.grp.firstBoundary then s.grp.round + 1 else s.grp.round
      t.grp.firstBoundary = true ∧ t.grp.adoptRound = none ∧
      (s.grp.firstBoundary = false → t.grp.groupTime = t.grp.round * BitVec.ofNat 64 (roundTicks s)) ∧
      (s.grp.firstBoundary = true → t.grp.groupTime = s.grp.groupTime + BitVec.ofNat 64 (roundTicks s)) ∧
      (∀ b, s.grp.adoptRound = some b → r0 ≤ b → t.grp.round = b + 1) ∧
      ((∀ b, s.grp.adoptRound = some b → b < r0) → t.grp.round = r0)) ∧
    (s.grp.roundFixed = false → exec .roundBoundary s = .next s) ∧
    (Runs s → s.grp.firstBoundary = true → ctxCfg? s.grp.cfg n = some x → startsAt x (s.grp.round.toNat + 1) = true →
      x.offset + periodRounds x.period ≤ s.grp.round.toNat + 1 → (∀ l, InStep (lane s l)) →
      Completes (.outputPoint n) s fun t =>
        t.tiles = s.tiles ∧ t.mod = s.mod ∧ ∀ l,
          let c := ctxRun (lane s l) n
          let d := ctxRun (lane t l) n
          (l ∉ runLanes s → d = c) ∧
          (l ∈ runLanes s → c.st ≠ .running → d = { c with safePub := true, owes := false }) ∧
          (l ∈ runLanes s → c.st = .running → c.owes = true → c.busy = false → c.lateNow = false →
            d.st = .running ∧ d.owes = false ∧ d.lateRun = 0 ∧ d.safePub = false) ∧
          (l ∈ runLanes s → c.st = .running → c.owes = true → c.busy = true →
            (x.vital = false ∨ c.lateRun = 0 → d.st = .running ∧ d.lateNow = true ∧
              d.lateRun = min 2 (c.lateRun + 1) ∧ d.lateCount = min 65535 (c.lateCount + 1) ∧ d.pub = c.pub) ∧
            (x.vital = true → 1 ≤ c.lateRun → d.st = .safeOverrun ∧ d.safePub = true ∧ d.busy = false))) ∧
    (Runs s → s.mod.op ≠ .startUp → s.grp.roundFixed = true → s.grp.firstBoundary = true → (∀ l, InStep (lane s l)) →
      Completes .downlinkBuild s fun t =>
        t.tiles = s.tiles ∧ t.mod = s.mod ∧ (hub t .h0).tele = (hub t .h1).tele ∧
        ∀ l st, seatOfLane s l = some st → (lane s l).hubWords = true → (lane s l).dbg.halted = false →
          (lane s l).fenced = false →
          ∃ f g, (lane t l).gates = ⟨some f, some g⟩ ∧ f.seat = st ∧ g.seat = st ∧ f.round = s.grp.round ∧
            g.round = s.grp.round ∧ f.code = gateCode .t0 f ∧ g.code = gateCode .t1 g ∧ f.upper = f.lower ∧
            g.upper = g.lower) ∧
    (Runs s → s.grp.firstBoundary = true → ctxCfg? s.grp.cfg n = some x →
      (s.grp.cfg.marks.find? fun y => y.ctx == n && y.mark == k) = some m → markDue s x m = true → m.hasTask = true →
      x.vital = false → Completes (.cycleMark n k) s fun t =>
        OnlyHubs { s with lanes := t.lanes } t ∧ ∀ l,
          (l ∉ runLanes s → lane t l = lane s l) ∧
          (l ∈ runLanes s → (ctxRun (lane s l) n).st = .running →
            (markBusy (lane s l) n k = true →
              (ctxRun (lane t l) n).markSkips = (ctxRun (lane s l) n).markSkips + 1 ∧
              (lane t l).cur = (lane s l).cur ∧ (lane t l).susp = (lane s l).susp) ∧
            (∀ ty off cause, markBusy (lane s l) n k = false → x.marks[k]? = some (ty, off) →
              instCheck (lane s l) n (BitVec.ofNat 32 (x.base + 16 * off)).toNat ty = .error cause →
              (ctxRun (lane t l) n).st = .safeFault ∧ (ctxRun (lane t l) n).fault = cause) ∧
            (∀ ty off code, markBusy (lane s l) n k = false → x.marks[k]? = some (ty, off) → (lane s l).wait = none →
              instCheck (lane s l) n (BitVec.ofNat 32 (x.base + 16 * off)).toNat ty = .ok code →
              ∃ u ∈ (lane t l).cur.toList ++ (lane t l).susp, u.ctx = n ∧ u.mark = some k ∧
                u.pc = BitVec.ofNat 32 (typeCode (lane s l).mem ty) ∧ u.ib = BitVec.ofNat 32 (x.base + 16 * off) ∧
                u.cyc = BitVec.ofNat 64 (cycleIndex x s.grp.round.toNat) ∧ u.stack = [] ∧ ∀ r, getX u r = 0))) ∧
    (s.grp.gst = .forming ∨ s.grp.firstBoundary = false → exec (.cycleMark n k) s = .next s) ∧
    (s.grp.gst = .safe → Completes (.cycleMark n k) s (OnlyHubs s))

/-! ## Updates and messages to the hubs -/

/-- As background work a lane applies staged blocks into its inactive bank, while its journal is open and they are undamaged, and
takes a lost bank from a seat if the copy verifies; the verdicts decide the session; the
writes a command waits for reach the flash; the hubs take new firmware one after the other (R466, R470-R473, R484, R487, R524,
R544, R575). -/
def Obligations.UpdateEvents : Prop :=
  ∀ (s : State) (l src : LaneId) (b : List (BitVec 8)) (r : List (List (BitVec 8))) (x : Session) (ht : HubId × BitVec 32)
    (w : PendWrite), s.mod.pwrgd = true →
    let L := lane s l
    (L.nv.retire = 0 → L.selfTest.running = false → L.journal = true → bgTurn s l 7 = true → L.nv.staged = b :: r →
      (stagedOk L.nv = true → Completes (.blockApplied l) s fun t =>
        OnlyLane l s t ∧ (lane t l).nv.staged = r ∧ activeBank (lane t l).nv = activeBank L.nv ∧
        (inactiveBank (lane t l).nv).hash = none ∧
        lane t l = { L with nv := (lane t l).nv, upd := { L.upd with st := (lane t l).upd.st } }) ∧
      (stagedOk L.nv = false → exec (.blockApplied l) s = .next (setLane s l { L with
        nv := { L.nv with staged := [] }, upd := { L.upd with missed := true, st := 0 } }))) ∧
    (bgTurn s l 7 = false → exec (.blockApplied l) s = .next s ∧ exec (.bankCopyComplete l src) s = .next s) ∧
    (L.journal = false → exec (.blockApplied l) s = .next s) ∧
    (s.grp.session = none → L.imgOk = false → isSeated s l = false → copyFrom s l src = true → bgTurn s l 7 = true →
      copyOk (activeBank (lane s src).nv) = false → exec (.bankCopyComplete l src) s = .next s) ∧
    (s.grp.session = none → L.imgOk = false → isSeated s l = false → copyFrom s l src = true → bgTurn s l 7 = true →
      copyOk (activeBank (lane s src).nv) = true → Completes (.bankCopyComplete l src) s fun t =>
        OnlyLane l s t ∧ activeBank (lane t l).nv = activeBank (lane s src).nv ∧ (lane t l).imgOk = true ∧
        (lane t l).loaded = false ∧ (lane t l).nv.sealRec = (lane s src).nv.sealRec) ∧
    (s.grp.session = some x → x.st = .verifying → x.vTag = some ht → (∀ k, applicationDone (lane s k) = true) →
      ((∀ k, laneVerdict (lane s k) x.hdr = 0) → Completes .updateVerifyComplete s fun t =>
        (t.grp.session.map (·.st)) = some .verified ∧ ∀ k, (lane t k).upd.st = 3 ∧ (lane t k).upd.verdict = some 0 ∧
          (inactiveBank (lane t k).nv).hash = some x.hdr.toHash) ∧
      ((∃ k ∈ seated s, ∃ v, laneVerdict (lane s k) x.hdr = v ∧ v ≠ 0 ∧ v ≠ 1 ∧ v ≠ 6) →
        Completes .updateVerifyComplete s fun t => (t.grp.session.map (·.st)) = some .failed)) ∧
    (L.journal = true → (L.writes.find? fun y => y.what == w.what) = some w → w.what ≠ .confirmed →
      Completes (.flashWriteComplete l w.what) s fun t =>
        (∀ o, o ≠ l → lane t o = lane s o) ∧ t.tiles = s.tiles ∧ (lane t l).writes = L.writes.erase w ∧
        (w.what = .settings → (lane t l).nv = writeSaved L.nv w.vals) ∧
        (w.what = .settingsErase → (lane t l).nv = { L.nv with set0 := {}, set1 := {} }) ∧
        (w.what = .journalBlock → (lane t l).nv.staged = L.nv.staged ++ [w.data])) ∧
    (L.journal = false → exec (.flashWriteComplete l w.what) s = .next s) ∧
    (let stops (h : HubId) (t : State) : Prop :=
      OnlyHubs s t ∧ hub t (peerHub h) = hub s (peerHub h) ∧
      hub t h = { hub s h with fwRunning := false, fwNew := none, outbox := [], tele := [], grantTele := [],
                               lo := (hub t h).lo, hi := (hub t h).hi, valuz := (hub t h).valuz, pools := (hub t h).pools,
                               gated := (hub t h).gated } ∧
      (∀ c ∈ (hub t h).valuz.toList, c.st ≠ .busy) ∧
      ∀ P ∈ [(hub t h).lo, (hub t h).hi], P.node = .listen ∧ P.known = false ∧ P.sending = none ∧ P.guard.st = .closed ∧
        P.guard.isOpen = false
     ((hub s .h1).fwNew.isSome → (hub s .h1).fwRunning = true → Completes (.hubFwRestart .h1) s (stops .h1)) ∧
     ((hub s .h0).fwNew.isSome → (hub s .h0).fwRunning = true → (hub s .h1).fwNew = none →
      ((hub s .h1).fwRunning = true → (hub s .h1).running = true → Completes (.hubFwRestart .h0) s (stops .h0)) ∧
      ((hub s .h1).running = false → exec (.hubFwRestart .h0) s = .next s ∧
        Completes .hubFwRestartTimeout s (stops .h0))))

/-- A running hub hands what it has stamped to the lanes, which take it in (R19, R35); once a lane's window has compared equal, its
status message leaves it, and the hub holds what it says: that lane's own word at once, the group's words only where another seat has
said the same of the same round; the mirror follows once per round, with the last lane's message of it or, where a lane stays silent,
with the first message of a later round (R41, R64, R65, R104, R423; when it follows is the model's choice, log 130). -/
def Obligations.MessagesBetweenLanesAndHubs : Prop :=
  ∀ (s : State) (h : HubId) (l : LaneId) (r : BitVec 64), s.mod.pwrgd = true → (hub s h).fwRunning = true →
    let M := (hub s h).mirror
    let now := s.grp.round
    let held (x : BitVec 64) : Prop := ∀ k m, quadGet M.msgs k = some m → m.round = x
    let others := ∀ k, k ≠ l → ∃ m, quadGet M.msgs k = some m ∧ m.round = now
    (Completes (.stampedActionReceived h) s fun t =>
      t = { setHub s h { hub s h with outbox := [] } with
        lanes := t.lanes, grp := { s.grp with actions := s.grp.actions ++ (hub s h).outbox } } ∧
      ∀ k, TakesIn (lane s k) (lane t k)) ∧
    (InStep (lane s l) → Completes (.statusMessageReceived h l) s fun t =>
      let N := (hub t h).mirror
      t = { s with hubs := t.hubs, lanes := t.lanes } ∧ (∀ k, k ≠ l → lane t k = lane s k) ∧
      WindowEnds (lane s l) (lane t l) ∧ hub t (peerHub h) = hub s (peerHub h) ∧
      hub t h = { hub s h with mirror := N, round := now, opState := (hub t h).opState,
                               safetyMajor := (hub t h).safetyMajor, isSealed := (hub t h).isSealed } ∧
      quadGet N.lanes l = laneWordOf s l ∧ (∀ k, k ≠ l → quadGet N.lanes k = quadGet M.lanes k) ∧
      N.group =
        (if (backers s l).any fun k => (quadGet M.msgs k).any fun m => m.round == now && m.group == groupWordOf s
         then groupWordOf s else M.group) ∧
      (others → M.sq = 0 ∨ M.round ≠ now →
        N.sq = M.sq + 2 ∧ N.round = now ∧ N.shown = { lanes := N.lanes, group := N.group, tiles := N.tiles }) ∧
      (held now → ¬ others ∨ (M.sq ≠ 0 ∧ M.round = now) → N.sq = M.sq ∧ N.round = M.round ∧ N.shown = M.shown) ∧
      (held r → r < now → (∃ k m, quadGet M.msgs k = some m) → M.sq = 0 ∨ M.round ≠ r →
        N.sq = M.sq + 2 ∧ N.round = r ∧ N.shown = { lanes := M.lanes, group := M.group, tiles := M.tiles }))

/-! ## The host bridge -/

/-- A hub that stops is lost, and the other one serves its handles, telemetry apart; the adoption ends with its vectors masked
but vector 2; a Function Level Reset, a link that returns and failed host reads touch the host side of their hub alone
(R418, R425, R426, R439-R446, R550). -/
def Obligations.HubLossAndAdoption : Prop :=
  ∀ (s : State) (h : HubId) (deg : Bool) (v : Fin 16) (t0 u0 : Nat) (r0 : BitVec 64), s.mod.pwrgd = true →
    let H := hub s h
    let p := peerHub h
    let P := hub s p
    let hostOff (K : Hub) : Prop := K.running = false ∧ K.enable = false ∧ K.cmdProd = 0 ∧ K.cmdCons = 0 ∧
      K.rpl.out = [] ∧ K.sev.out = [] ∧ K.pendRd = [] ∧ K.fwRunning = H.fwRunning ∧ K.outbox = H.outbox ∧
      K.valuz = H.valuz
    (H.lost = false → seated s ≠ [] → H.linkGone = false → P.fwRunning = true → P.lost = false →
      Completes (.hubLost h) s fun t =>
        t.lanes = s.lanes ∧ t.tiles = s.tiles ∧ t.grp.seats = s.grp.seats ∧ (hub t h).lost = true ∧
        (hub t h).fwRunning = false ∧ (hub t h).outbox = [] ∧ (hub t p).adoptAt.isSome ∧ (hub t p).peerAlive = false ∧
        (∀ x ∈ t.grp.handles, x.server ≠ h) ∧
        (∀ x ∈ s.grp.handles, x.server = h → handleType x.word ≠ 4 →
          { x with server := p, held := handleType x.word == 2 } ∈ t.grp.handles) ∧
        (s.mod.op = .service → t.mod.op = .recovery)) ∧
    (H.adoptAt = some (t0, u0, r0) → Completes (.adoptionComplete h) s fun t =>
      (hub t h).adoptAt = none ∧ (hub t h).serving = true ∧ (hub t h).adoptions = H.adoptions + 1 ∧
      (∀ i : Fin 16, i ≠ 2 → (hub t h).vecs[i].mask = true) ∧ (H.vecs[2].mask = true → (hub t h).vecs[2].pending = true) ∧
      (H.vecs[2].mask = false → (hub t h).vecs[2].sent = H.vecs[2].sent + 1) ∧ t.tiles = s.tiles ∧
      t.grp = s.grp) ∧
    (Completes (.pcieLinkDownTimeout h) s fun t => OnlyHubs s t ∧ hub t p = P ∧
      hub t h = { H with pcieUp := false, linkGone := H.fwRunning, ctrs := (hub t h).ctrs, ctrOwed := (hub t h).ctrOwed } ∧
      (H.pcieUp = false → (hub t h).ctrs = H.ctrs ∧ (hub t h).ctrOwed = H.ctrOwed)) ∧
    (Completes (.functionLevelReset h) s fun t =>
      t.lanes = s.lanes ∧ t.tiles = s.tiles ∧ t.mod = s.mod ∧ t.grp.handles = s.grp.handles ∧
      t.grp.actions = s.grp.actions ∧ hostOff (hub t h)) ∧
    (Completes (.perst h deg) s fun t =>
      t.lanes = s.lanes ∧ t.tiles = s.tiles ∧ t.mod = s.mod ∧ t.grp.handles = s.grp.handles ∧ hostOff (hub t h) ∧
      (hub t h).pcieUp = true ∧ (hub t h).perstN = true ∧ (hub t h).degraded = deg) ∧
    (exec (.dmaError h .block) s =
      .next (setHub s h { H with counts := { H.counts with dmaError := satInc H.counts.dmaError } })) ∧
    (ringsOn H = true → H.pendRd = [] → Completes (.dmaError h .cmdFetch) s fun t =>
      OnlyHubs s t ∧ (hub t h).running = false ∧ (hub t h).enable = true ∧
      (hub t h).counts.dmaError = satInc H.counts.dmaError ∧ (hub t p).peerAlive = false) ∧
    (H.vecs[v].hold = true →
      (H.vecs[v].again = false → exec (.moderationHoldEnd h v) s = .next (setHub s h { H with
        vecs := H.vecs.set v.val { H.vecs[v] with hold := false, again := false } v.isLt })) ∧
      (H.vecs[v].again = true → H.vecs[v].mask = false → Completes (.moderationHoldEnd h v) s fun t =>
        OnlyHubs s t ∧ hub t p = P ∧ (hub t h).vecs[v].sent = H.vecs[v].sent + 1 ∧ (hub t h).vecs[v].again = false ∧
        ∀ i, i ≠ v → (hub t h).vecs[i] = H.vecs[i])) ∧
    (H.pcieUp = true → H.vecs[v].hold = false → Completes (.msixMaskClear h v) s fun t =>
      OnlyHubs s t ∧ hub t p = P ∧ (hub t h).vecs[v].mask = false ∧ (hub t h).vecs[v].pending = false ∧
      (hub t h).vecs[v].sent = H.vecs[v].sent + (if H.vecs[v].pending then 1 else 0) ∧
      ∀ i, i ≠ v → (hub t h).vecs[i] = H.vecs[i])

/-- The host's registers (R8, R393-R397, R424, R437, R443, R501): doorbells and consumed indices, ENABLE and RUNNING, the
counter block, bases and sizes that a running hub ignores; a hub without link or firmware takes none. -/
def Obligations.HostRegisters : Prop :=
  ∀ (s : State) (h : HubId) (v : BitVec 32) (e : Fin 64) (q : Fin 16) (off : Nat) (x : Stream), s.mod.pwrgd = true →
    let H := hub s h
    let p := peerHub h
    let one (t : State) : Prop := OnlyHubs s t ∧ hub t p = hub s p
    (H.fwRunning = false ∨ H.pcieUp = false →
      ∀ c ∈ [Instr.commandDoorbell h v [], .rplConsWrite h v, .sevConsWrite h v, .evchConsWrite h e v,
        .peerEvchConsWrite h e v, .tlmConsWrite h q v, .ringEnable h, .ringDisable h, .cntClear h,
        .registerWrite h off v], exec c s = .next s) ∧
    (H.fwRunning = true → H.pcieUp = true →
      (exec (.commandDoorbell h v []) s = .next (setHub s h { H with cmdProd := v })) ∧
      (Completes (.rplConsWrite h v) s fun t => one t ∧ (hub t h).rpl.cons = v ∧
        hub t h = { H with rpl := { H.rpl with cons := v, out := (hub t h).rpl.out } }) ∧
      (Completes (.sevConsWrite h v) s fun t => one t ∧ (hub t h).sev.cons = v ∧
        (H.sev.drops ≠ 0 → ringsOn H = true → ringRoom (ringConsume H.sev v) 1 = true →
          (hub t h).sev.drops = 0 ∧
          { code := 0x800B, data := leBytes 8 s.grp.round.toNat ++ leBytes 4 H.sev.drops : RingEntry } ∈
            (hub t h).sev.out)) ∧
      (Completes (.evchConsWrite h e v) s fun t => one t ∧ (hub t h).evchCons[e] = v ∧
        ∀ r, tblGet H.evch e.val = some r → ∃ r', tblGet (hub t h).evch e.val = some r' ∧ r'.cons = v) ∧
      (Completes (.peerEvchConsWrite h e v) s fun t => t.lanes = s.lanes ∧ t.tiles = s.tiles ∧ t.mod = s.mod ∧
        hub t p = hub s p ∧ (hub t h).peerCons[e] = v ∧
        ∀ y ∈ t.grp.handles, y.server = h → handleType y.word = 2 → handleIdx y.word = e.val → y.held = false) ∧
      (Completes (.tlmConsWrite h q v) s fun t => one t ∧ (hub t h).tlmCons[q] = v) ∧
      (H.enable = false → H.running = false →
        (ringsValid H = true → Completes (.ringEnable h) s fun t => OnlyHubs s t ∧ (hub t h).running = true ∧
          (hub t h).enable = true ∧ (hub t h).lost = false ∧ (hub t p).peerAlive = true) ∧
        (ringsValid H = false → exec (.ringEnable h) s = .next (setHub s h { H with enable := true }))) ∧
      (H.enable = true → H.running = true →
        (H.pendRd = [] → Completes (.ringDisable h) s fun t => OnlyHubs s t ∧ (hub t h).running = false ∧
          (hub t h).enable = false ∧ (hub t h).cmdProd = 0 ∧ (hub t h).cmdCons = 0 ∧ (hub t p).peerAlive = false) ∧
        (H.pendRd ≠ [] → exec (.ringDisable h) s =
          .next (setHub s h { H with enable := false, draining := some true }))) ∧
      (Completes (.cntClear h) s fun t => one t ∧ (hub t h).counts = {} ∧
        (∀ i : Fin 16, (hub t h).lo.discard[i] = 0 ∧ (hub t h).hi.discard[i] = 0) ∧
        hub t h = { H with counts := {}, lo := { H.lo with discard := (hub t h).lo.discard },
                           hi := { H.hi with discard := (hub t h).hi.discard } }) ∧
      (H.running = true → exec (.registerWrite h 0x100 v) s = .next s ∧ exec (.registerWrite h 0x108 v) s = .next s) ∧
      (H.running = false →
        exec (.registerWrite h 0x100 v) s =
          .next (setHub s h { H with cmdBase := H.cmdBase.extractLsb' 32 32 ++ v }) ∧
        exec (.registerWrite h 0x104 v) s =
          .next (setHub s h { H with cmdBase := v ++ H.cmdBase.extractLsb' 0 32 }) ∧
        exec (.registerWrite h 0x108 v) s = .next (setHub s h { H with cmdSize := v.setWidth 4 })) ∧
      (exec (.registerWrite h 0x134 v) s =
        .next (setHub s h { H with shadow := H.shadow.extractLsb' 32 32 ++ v }))) ∧
    (tblGet H.streams q.val = some x → x.running = true → hubServes H = true → ringsOn H = true →
      Completes (.telemetrySamplePeriodEnd h q) s fun t => one t ∧
        ∃ y, tblGet (hub t h).streams q.val = some y ∧ y.latest = [] ∧ y.running = true ∧ x.out <+: y.out)

/-! ## Brodxo -/

/-- The nodes of the bus: a port that hears nothing leads, one that hears SYNC or COLD_START takes its round and boundary or
leads with a higher proposal, a COLD_START in the last 1 µs before its sending still leaves, send instants of two nodes within 20 µs
are a collision but where the higher of two counts is taken over (that choice is the model's, log 136), the correction of a boundary is applied up
to 4 µs and counted beyond it, two qualifying rounds integrate a node, the leave rules take it back to LISTEN, and an integrated
hub sends its SYNC and downlink frames, byte for byte, in its own slots where its guardian is open (R225, R227, R228, R232,
R261, R263-R277, R281). -/
def Obligations.BusNodes : Prop :=
  ∀ (s : State) (p : PortId) (cf : ColdStartFrame) (sf : SyncFrame) (atNs late tc : Int) (k idc : Nat) (x : SlotCfg),
    s.mod.pwrgd = true → (hub s (portHub p)).fwRunning = true → (port s p).linkUp = true →
    let P := port s p
    let ns := roundNs s
    let one (t : State) : Prop := OnlyHubs s t ∧ hub t (peerHub (portHub p)) = hub s (peerHub (portHub p))
    let heard (t : State) (r : BitVec 64) : Prop := (port t p).node = .integrating ∧ (port t p).round = r ∧ (port t p).known = true
    let coldOk := lenOk cf.head = true ∧ syncChecks s p cf.head 2 (cf.code == syncCode (busCfg s) 0x31 cf.head (coldBody cf))
      (cf.planId == (busCfg s).planId) = none
    let syncOk := lenOk sf.head = true ∧ syncChecks s p sf.head 1 (sf.code == syncCode (busCfg s) 0x30 sf.head (syncBody sf))
      (sf.planId == (busCfg s).planId) = none
    let own := proposal s (portHub p)
    (P.node = .listen → P.colds = [] → Completes (.listenTimeout p) s fun t => one t ∧ (port t p).node = .leading ∧
      (port t p).round = own ∧ (port t p).known = true ∧ (port t p).attempt = P.attempt + 1 ∧
      (port t p).boundaryNs = P.listenNs + listenTime s (portHub p) P - ownStart s p ∧
      (P.guard.st = .listen → P.guard.lastCold = none → ∃ f, (port t p).sent = P.sent ++ [f])) ∧
    (coldOk → P.colds = [] → committed s p P cf.arriveNs = none →
        ((P.node = .listen ∧ own ≤ cf.roundFull) ∨ (P.node = .leading ∧ P.round < cf.roundFull) →
          Completes (.coldStartReceived p cf) s fun t => one t ∧ heard t cf.roundFull ∧
            (port t p).boundaryNs = cf.sentNs - syncStart s p cf.head.sender) ∧
        (P.node = .listen → cf.roundFull < own → Completes (.coldStartReceived p cf) s fun t => one t ∧
          (port t p).node = .leading ∧ (port t p).known = true)) ∧
    (P.guard.st = .listen → P.guard.lastCold = none →
      (coldOk → (committed s p P cf.arriveNs).isSome → Completes (.coldStartReceived p cf) s fun t =>
        one t ∧ ∃ f, (port t p).sent = P.sent ++ [f]) ∧
      (syncOk → (committed s p P sf.arriveNs).isSome → Completes (.syncReceived p sf) s fun t =>
        one t ∧ ∃ f, (port t p).sent = P.sent ++ [f])) ∧
    (coldOk → P.node = .leading → P.settled = true → P.round < cf.roundFull → committed s p P cf.arriveNs = none →
      Completes (.coldStartReceived p cf) s fun t => one t ∧ heard t cf.roundFull) ∧
    (coldOk → P.colds = [(idc, tc)] → idc ≠ senderNode cf.head → (tc - cf.sentNs).natAbs < 20000 → P.collAt = none →
      committed s p P cf.arriveNs = none → outbids P cf.roundFull = false → P.node ≠ .integrated → Completes (.coldStartReceived p cf) s fun t => one t ∧ (port t p).node = .listen ∧
        (port t p).collisions = P.collisions + 1 ∧ (port t p).listenNs = min cf.sentNs tc) ∧
    (syncOk →
      (P.node = .listen → Completes (.syncReceived p sf) s fun t => one t ∧ heard t sf.roundFull ∧
        (port t p).boundaryNs = sf.sentNs - syncStart s p sf.head.sender) ∧
      (P.node = .integrated → P.known = true → slotMatches s p sf.head = true → sf.head.devNs.natAbs ≤ 8000 →
        (∀ v ∈ P.values, v.1 ≠ senderNode sf.head) →
        Completes (.syncReceived p sf) s fun t => one t ∧ (port t p).node = .integrated ∧
          (port t p).values = P.values ++ [(senderNode sf.head, sf.head.devNs)] ∧
          (sf.head.devNs.natAbs ≤ 1000 → (port t p).discard = P.discard) ∧
          (1000 < sf.head.devNs → (port t p).discard[7] = satInc P.discard[7]))) ∧
    (P.known = true → Completes (.hubRoundBoundary p atNs) s fun t =>
      let c := midpoint (0 :: P.values.map (·.2))
      one t ∧ (port t p).round = P.round + 1 ∧ (hub t (portHub p)).round = P.round + 1 ∧ (port t p).values = [] ∧
      (c.natAbs ≤ 4000 → (port t p).corr = c ∧ (port t p).missRds = 0 ∧ (port t p).rate.natAbs ≤ 20000 ∧
        (port t p).discard = P.discard ∧
        (port t p).boundaryNs = P.boundaryNs + ns + c + ns * (port t p).rate / 100000000) ∧
      (4000 < c.natAbs → (port t p).corr = P.corr ∧ (port t p).missRds = P.missRds + 1 ∧
        (port t p).discard[11] = satInc P.discard[11] ∧
        (port t p).boundaryNs = P.boundaryNs + ns + ns * P.rate / 100000000)) ∧
    ((P.node = .integrating ∧ 2 ≤ P.goodRds) ∨ (P.node = .leading ∧ 2 ≤ P.lastSyncs) → Runs s →
      s.grp.roundFixed = true → s.grp.round.toNat ≤ P.round.toNat → Completes (.nodeIntegrated p) s fun t =>
        (port t p).node = .integrated ∧ t.lanes = s.lanes ∧ t.tiles = s.tiles ∧ t.mod = s.mod ∧
        t.grp = { s.grp with adoptRound := if s.grp.round < P.round then some P.round else s.grp.adoptRound }) ∧
    (mustLeave P = true → Completes (.leaveIntegration p) s fun t => one t ∧ (port t p).node = .listen ∧
      (port t p).known = false ∧ (port t p).guard.st = .listen ∧ (port t p).sending = none) ∧
    (mustLeave P = false → exec (.leaveIntegration p) s = .next s) ∧
    (slotAt s p k = some x → ownSlot s p k = true → P.node = .integrated →
      (P.guard.isOpen = false → exec (.slotStart p ⟨k, late⟩) s = .next s) ∧
      (P.guard.isOpen = true → x.kind = 1 → Completes (.slotStart p ⟨k, late⟩) s fun t => one t ∧
        (port t p).sent = P.sent ++ [txFrame k (P.guard.dev + late) (syncWire p (ownSync s p P))] ∧
        (hub t (portHub p)).syncSeq = (hub s (portHub p)).syncSeq + 1) ∧
      (P.guard.isOpen = true → x.kind = 2 →
        let ts := frameTeles (busCfg s) (hub s (portHub p)) (portSeg p) x.owner P.round
        ts ≠ [] → Completes (.slotStart p ⟨k, late⟩) s fun t => one t ∧ (port t p).txSeq = P.txSeq + 1 ∧
          (port t p).sent = P.sent ++
            [txFrame k (P.guard.dev + late) (frameBytes p (ownHead s p 3 k P.txSeq P.round) (downBody ts))] ∧
          (hub t (portHub p)).counts.teleOmit = satInc (hub s (portHub p)).counts.teleOmit (omitted ts))) ∧
    (∀ up gig, Completes (.portLinkChange p up gig) s fun t =>
      let H := hub s (portHub p)
      t = setPort (setHub s (portHub p) { H with ctrs := (hub t (portHub p)).ctrs, ctrOwed := (hub t (portHub p)).ctrOwed }) p
        { P with linkUp := up && gig, toldDown := !(up && gig) } ∧
      ((up && gig) = P.linkUp → (hub t (portHub p)).ctrs = H.ctrs))

/-- A guardian judges its hub's boundary against its own prediction (also that of a leader: log 137), locks after 3 accepted boundaries of its integrated hub,
goes back to LISTEN after 3 rejected ones, closes on a failed self-check, and while locked opens its hub's transmitter in own
slots alone; a frame whose last byte leaves more than 0.25 µs after the slot's frame time is cut and counted (R253, R254,
R276). -/
def Obligations.Guardians : Prop :=
  ∀ (s : State) (p : PortId) (k : Nat) (f : TxFrame) (x : SlotCfg) (atNs q : Int), s.mod.pwrgd = true →
    let P := port s p
    let G := P.guard
    let shut (t : State) : Prop := t = setPort s p { P with sending := none, guard := { G with isOpen := false } }
    ((hub s (portHub p)).fwRunning = true → P.known = true → (P.node = .integrated ∨ P.node = .leading) → G.st ≠ .closed → G.predNs = some q →
      Completes (.hubRoundBoundary p atNs) s fun t =>
        let V := (port t p).guard
        V.st = G.st ∧ V.isOpen = false ∧ V.dev = atNs - q ∧
        ((atNs - q).natAbs ≤ 200 → V.accepted = G.accepted + 1 ∧ V.rejected = 0 ∧ V.rejectNow = false) ∧
        (200 < (atNs - q).natAbs → V.accepted = 0 ∧ V.rejected = G.rejected + 1 ∧ V.rejectNow = true)) ∧
    (G.st = .listen → P.node = .integrated → 3 ≤ G.accepted →
      exec (.guardianLocked p) s = .next (setPort s p { P with guard := { G with st := .locked } })) ∧
    (G.accepted < 3 → exec (.guardianLocked p) s = .next s) ∧
    (G.st = .locked → 3 ≤ G.rejected → Completes (.guardianListen p) s fun t =>
      t = setPort s p (port t p) ∧ port t p = { P with guard := (port t p).guard } ∧ (port t p).guard.st = .listen ∧
      (port t p).guard.isOpen = false) ∧
    (G.rejected < 3 → exec (.guardianListen p) s = .next s) ∧
    (Completes (.guardianSelfCheckFail p) s fun t =>
      t = setPort s p (port t p) ∧ (port t p).guard.st = .closed ∧ (port t p).guard.isOpen = false ∧
      (port t p).sending = none) ∧
    (G.st = .locked → G.rejectNow = false → ownSlot s p k = true → exec (.guardianWindowOpen p k) s =
      .next (setPort s p { P with guard := { G with isOpen := true } })) ∧
    (ownSlot s p k = false ∨ G.rejectNow = true →
      exec (.guardianWindowOpen p k) s = .next s) ∧
    (G.st = .locked → G.isOpen = true → ownSlot s p k = true → slotAt s p k = some x →
      (P.sending = none → Completes (.guardianWindowClose p k) s shut) ∧
      (P.sending = some f → f.endsNs ≤ 10 * (x.len : Int) - 750 → Completes (.guardianWindowClose p k) s shut) ∧
      (P.sending = some f → 10 * (x.len : Int) - 750 < f.endsNs → Completes (.guardianWindowClose p k) s fun t =>
        t = setPort s p (port t p) ∧ f ∉ (port t p).sent ∧ (port t p).sending = none ∧ (port t p).guard.isOpen = false ∧
        (port t p).discard[10] = satInc P.discard[10]))

/-- Uplinks, claims and the owner (R229, R238, R239, R245-R249, R297, R301): a frame with a fault of R229 is counted by its cause
and reaches no lane; an intact and newer uplink reaches every lane that hears, over its hub's channel; a claim waits in each
lane; silence of the owner, of a granted slot, of a station or of a service ends what it held. -/
def Obligations.BusFrames : Prop :=
  ∀ (s : State) (p : PortId) (f : UplinkFrame) (body pay : List (BitVec 8)) (addr k e : Nat) (g : Grant) (q : SvcReq) (w : Waiting), s.mod.pwrgd = true →
    let h := portHub p
    let P := port s p
    let stn := f.head.sender
    let on := (hub s h).fwRunning = true ∧ P.linkUp = true ∧ lenOk f.head = true
    let up := on ∧ P.known = true
    let cmds := [Instr.uplinkReceived p f, .claimReceived p f, .downlinkFrameReceived p ⟨f.head, body⟩]
    (lenOk f.head = false → ∀ c ∈ cmds, exec c s = .next s) ∧
    (on → P.known = false → ∀ c ∈ cmds, Completes c s fun t => OnlyHubs s t ∧
      match earlyFault (busCfg s) p f.head with
      | some i => (port t p).discard.toList[i]? = (P.discard.toList[i]?).map satInc
      | none => (port t p).discard = P.discard) ∧
    (up → frameFault s p f.head = some e → e < 16 →
      (∀ c ∈ cmds, Completes c s fun t =>
        OnlyHubs s t ∧ (port t p).discard.toList[e]? = (P.discard.toList[e]?).map satInc)) ∧
    (up → frameFault s p f.head = none →
      (f.head.ftype = 4 → f.code = stationCode (busCfg s) 0x20 f.head f.payload → ulLenOf s stn = some f.payload.length →
        (((tblGet (hub s h).passed stn).all fun v => newer f.head.seq v.1) = true →
          Completes (.uplinkReceived p f) s fun t =>
            t.tiles = s.tiles ∧ t.grp = s.grp ∧ t.mod = s.mod ∧ tblGet (hub t h).passed stn = some (f.head.seq, 0) ∧
            ∀ l, (l ∉ hearing s → lane t l = lane s l) ∧
              (l ∈ hearing s → f.code ≠ stationCode (lane s l).cfg 0x20 f.head f.payload →
                (lane t l).upl = (lane s l).upl ∧ (tblGetD (lane t l).stn stn {}).codeFails =
                  min 255 ((tblGetD (lane s l).stn stn {}).codeFails + 1)) ∧
              (l ∈ hearing s → (tblGetD (lane s l).stn stn {}).lastSeq = none →
                f.code = stationCode (lane s l).cfg 0x20 f.head f.payload →
                TakesIn { lane s l with upl := (lane t l).upl } (lane t l) ∧
                (tblGet (lane t l).upl stn).bind (fun u => if hubNum h = 1 then u.b else u.a) =
                  some { payload := f.payload, seq := f.head.seq })) ∧
        (((tblGet (hub s h).passed stn).any fun v => !newer f.head.seq v.1) = true →
          Completes (.uplinkReceived p f) s fun t => OnlyHubs s t ∧ (port t p).discard[9] = satInc P.discard[9])) ∧
      (f.head.ftype = 4 → f.code ≠ stationCode (busCfg s) 0x20 f.head f.payload → Completes (.uplinkReceived p f) s fun t =>
        (port t p).discard[8] = satInc P.discard[8] ∧ t.grp = s.grp ∧ ∀ l ∈ hearing s, (lane t l).upl = (lane s l).upl ∧
          (tblGetD (lane t l).stn stn {}).codeFails = min 255 ((tblGetD (lane s l).stn stn {}).codeFails + 1)) ∧
      (f.head.ftype = 5 → f.code = stationCode (busCfg s) 0x21 f.head f.payload → Completes (.claimReceived p f) s fun t =>
        t.grp = s.grp ∧ t.tiles = s.tiles ∧ ∀ l, (l ∉ hearing s → lane t l = lane s l) ∧
          (l ∈ hearing s → f.code = stationCode (lane s l).cfg 0x21 f.head f.payload →
            ∃ c ∈ (lane t l).claims, c.2.head.sender = stn)) ∧
      (f.head.ftype = 3 → ownerOf (busCfg s) (senderNode f.head) = some k →
        Completes (.downlinkFrameReceived p ⟨f.head, body⟩) s fun t =>
          t.lanes = s.lanes ∧ t.tiles = s.tiles ∧ t.mod = s.mod ∧
          t.grp = { s.grp with ownerQuiet := tblSet s.grp.ownerQuiet k 0, grants := t.grp.grants } ∧
          (isOwner s.grp = true → t.grp.grants = s.grp.grants) ∧
          (isOwner s.grp = false → teleList body.length body = [(addr, 1, pay)] → beNat (sliceBytes pay 0 2) ≠ 0xFFFF →
            (∀ y ∈ s.grp.grants, y.addr ≠ addr) → ∃ y ∈ t.grp.grants, y.addr = addr ∧ y.seg = portSeg p ∧
              y.slot = beNat (sliceBytes pay 0 2) ∧ y.len = beNat (sliceBytes pay 2 2) ∧ y.until_ = none) ∧
          (isOwner s.grp = false → teleList body.length body = [(addr, 2, pay)] →
            ∀ y ∈ t.grp.grants, y.addr = addr → y.until_.isSome = true))) ∧
    (ownPlace s.grp.cfg = some k → s.grp.ownerIdx < k → quietBefore s.grp k = true → Runs s →
      exec .scheduleStandinTakeover s = .next { s with grp := { s.grp with ownerIdx := k } }) ∧
    ((s.grp.grants.find? fun y => y.addr == addr && y.until_.isNone) = some g → s.grp.cfg.spareRel ≤ g.silent → isOwner s.grp = true → Runs s →
      Completes (.spareReleaseTimeout addr) s fun t =>
        t = { s with grp := { s.grp with grantOut := t.grp.grantOut } } ∧
        ∀ m, m ∈ t.grp.grantOut ↔
          m = { addr := addr, seg := g.seg, revoke := true, slot := g.slot, len := 0 } ∨
            (m ∈ s.grp.grantOut ∧ m.addr ≠ addr)) ∧
    ((∃ l ∈ seated s, ∃ v, tblGet (lane s l).stn addr = some v ∧ 65536 ≤ v.sinceUp) →
      Completes (.uplinkSequenceClear addr) s fun t => t.grp = s.grp ∧ t.tiles = s.tiles ∧ t.mod = s.mod ∧
        (∀ o, tblGet (hub t o).passed addr = none) ∧ ∀ l, (tblGetD (lane t l).stn addr {}).lastSeq = none) ∧
    ((tblGetD s.grp.svc addr {}).since.isSome → (tblGetD s.grp.svc addr {}).queue.head? = some q →
      ((tblGetD s.grp.svc addr {}).since.getD 0).toNat + s.grp.cfg.svcTimeout ≤ s.grp.round.toNat → q.write = false →
      ((hub s q.hub).pendRd.find? fun x => x.tag == q.tag) = some w → (hub s q.hub).draining = none →
      Completes (.serviceTimeout addr) s fun t => t.lanes = s.lanes ∧ t.tiles = s.tiles ∧
        (tblGetD t.grp.svc addr {}).queue = (tblGetD s.grp.svc addr {}).queue.drop 1 ∧
        (hub t q.hub).rpl.out.getLast? = some { code := w.opcode, flags := w.flags, tag := q.tag, handle := w.handle,
                                                status := 0x0051, data := [] })

/-! ## Field tiles and safety functions -/

/-- Gate frames, strobes, snapshots and seat maps (R71, R312-R314, R337): a frame of another round or with a wrong code is
counted and not taken; the first strobe of a boundary takes every channel before any element switches, counts the seats and
silences those without frames; the second latches the snapshot, which a lane takes in but where it has waited its 50 µs for it; a lane
without it finds the channels missing. -/
def Obligations.GateFrames : Prop :=
  ∀ (s : State) (t : TileId) (f g : GateFrame) (st : SeatId) (l : LaneId) (m : SeatMap) (z : Snapshot), s.mod.pwrgd = true →
    let T := tile s t
    let D := seatDrive T st
    (T.fieldUp = true → (gateLane s t f.seat).isSome →
      (f.round = fieldNow s T → f.code = gateCode t f → exec (.gateCommandFrame t f) s =
        .next (setTile s t (setDrive T f.seat { seatDrive T f.seat with frame := some f }))) ∧
      (f.round ≠ fieldNow s T ∨ f.code ≠ gateCode t f → exec (.gateCommandFrame t f) s =
        .next (setTile s t { T with discards := min 255 (T.discards + 1) }))) ∧
    (gateLane s t f.seat = none → exec (.gateCommandFrame t f) s = .next s) ∧
    (T.fieldUp = true → Runs s → s.grp.roundFixed = true → (gateLane s t st).isSome → T.boundary ≠ some (nextRound s) →
      Completes (.tileStrobe t st) s fun u =>
        let U := tile u t
        let heard (x : SeatId) : Prop := ∃ y, (seatDrive T x).frame = some y ∧ y.round = fieldNow s T
        (u.lanes = s.lanes ∧ u.grp = s.grp ∧ u.mod = s.mod ∧ ∀ j, j ≠ t → tile u j = tile s j) ∧
        (U.fieldRound = some (nextField s T) ∧ U.boundary = some (nextRound s) ∧ U.map = T.newMap.getD T.map ∧
          U.newMap = none ∧ U.snap = T.snap ∧
          U.taken = (List.range 16).map (takeChan { s with free := s.free + 1 } t)) ∧
        (∀ k, k < 16 → (chan U k).count = (chan T k).count ∧ (chan U k).deb = (chan T k).deb ∧ (chan U k).delta = 0 ∧
          (chan U k).changes = [] ∧ (chan U k).roundVal = (chan T k).deb) ∧
        (∀ x, heard x → (seatDrive U x).silent = 0 ∧ (seatDrive U x).good = (seatDrive T x).good + 1 ∧
          (seatDrive U x).isSilent = false) ∧
        (∀ x, ¬ heard x → (seatDrive U x).silent = (seatDrive T x).silent + 1 ∧ (seatDrive U x).good = 0 ∧
          (tileSilence T ≤ (seatDrive T x).silent + 1 →
            (seatDrive U x).isSilent = true ∧ (seatDrive U x).upper = 0 ∧ (seatDrive U x).lower = 0)) ∧
        (D.frame = some g → g.round = fieldNow s T →
          (seatDrive U st).upper = g.upper ∧ (seatDrive U st).lower = g.lower ∧ (seatDrive U st).cuffs = g.cuffs) ∧
        ∀ x, x ≠ st → heard x → (seatDrive U x).upper = (seatDrive T x).upper ∧ (seatDrive U x).lower = (seatDrive T x).lower) ∧
    (T.fieldUp = true → Runs s → s.grp.roundFixed = true → (gateLane s t st).isSome → T.boundary = some (nextRound s) →
      (D.struck = true → exec (.tileStrobe t st) s = .next s) ∧
      (D.struck = false → strobesOf T = 1 → Completes (.tileStrobe t st) s fun u =>
        OnlyTile t s u ∧ (tile u t).taken = T.taken ∧ (tile u t).fieldRound = T.fieldRound ∧ (seatDrive (tile u t) st).struck = true ∧
        ∃ y, (tile u t).snap = some y ∧ y.round = T.fieldRound.getD 0 ∧ y.chans = T.taken ∧ y.word = tileWord u t)) ∧
    (T.snap = some z → T.fieldUp = true → (lane s l).nv.retire = 0 → Completes (.snapshotReceived l t) s fun u =>
      OnlyLane l s u ∧
      (snapMiss t (lane s l) ≠ some z.round → TakesIn (setSnap t (some z) (lane s l)) (lane u l)) ∧
      (snapMiss t (lane s l) = some z.round → lane u l = { lane s l with ctrs := (lane u l).ctrs })) ∧
    (laneSnap t (lane s l) = none → Completes (.tileSnapshotTimeout l t) s fun u =>
      OnlyLane l s u ∧ laneSnap t (lane u l) = none ∧ snapMiss t (lane u l) = some (nextRound s)) ∧
    (laneSnap t (lane s l) = some z →
      (z.round = nextRound s → exec (.tileSnapshotTimeout l t) s = .next s) ∧
      (z.round ≠ nextRound s → Completes (.tileSnapshotTimeout l t) s fun u => OnlyLane l s u ∧
        snapOf (laneSnap t (lane u l)) (nextRound s) = none ∧ snapMiss t (lane u l) = some (nextRound s) ∧
        ∃ y, laneSnap t (lane u l) = some y ∧ y.word.getLsbD 10 = false ∧ y.chans = z.chans)) ∧
    (isSeated s l = false → exec (.seatMapReceived t l m) s = .next s) ∧
    (isSeated s l = true →
      ((∃ o, o ≠ l ∧ isSeated s o = true ∧ quadGet T.offered o = some m) → exec (.seatMapReceived t l m) s =
        .next (setTile s t { T with offered := ⟨none, none, none, none⟩, newMap := some m })) ∧
      ((∀ o, o ≠ l → isSeated s o = true → quadGet T.offered o ≠ some m) → exec (.seatMapReceived t l m) s =
        .next (setTile s t { T with offered := quadSet T.offered l (some m) }))) ∧
    (T.fieldUp = true → D.isSilent = false →
      (D.frame ≠ none ∨ D.silent < tileSilence T → Runs s → exec (.seatSilent t st) s = .next s) ∧
      ((D.frame = none ∧ tileSilence T ≤ D.silent) ∨ ¬ Runs s → Completes (.seatSilent t st) s fun u => OnlyTile t s u ∧
        (seatDrive (tile u t) st).isSilent = true ∧ (seatDrive (tile u t) st).frame = none ∧ (seatDrive (tile u t) st).upper = 0 ∧ (seatDrive (tile u t) st).lower = 0 ∧
        (∀ x, x ≠ st → seatDrive (tile u t) x = seatDrive T x) ∧
        ((tile u t).logicSilent = true ↔ T.logicSilent = true ∨ ∃ x, x ≠ st ∧ (seatDrive T x).isSilent = true)))

/-- Inputs of a tile (R22, R318-R324, R341, R499): a debounced change, a chatter window, a counted edge, a comparator's trim, whose
lane side is background work of the seated lanes, and the field side's temperature. -/
def Obligations.TileInputs : Prop :=
  ∀ (s : State) (t : TileId) (k off : Nat) (b : Bool) (e : CountEdge) (offs : List Nat) (deg : Int), s.mod.pwrgd = true →
    let T := tile s t
    let c := chan T k
    let w := chWord T k
    T.fieldUp = true → isInput T k = true →
    let few := c.chatCnt + 1 ≤ w.toNat / 2 ^ 32 % 256
    let c1 : Chan := { c with
      deb := b, chatCnt := c.chatCnt + 1, chatter := c.chatter || !decide few,
      calm := if few ∨ c.chatter = true then c.calm else 0,
      changes := if c.changes.length < 8 then c.changes ++ [{ off := off, val := b }] else c.changes,
      tooMany := c.tooMany || decide (8 ≤ c.changes.length) }
    let calm := if c.chatCnt ≤ 1 then c.calm + 1 else 0
    let c2 : Chan := { c with chatCnt := 0, calm := calm, chatter := c.chatter && (w.getLsbD 7 || decide (calm < 3)) }
    let d : Int := match chCnt w, e with
      | 1, .rise | 2, .rise | 2, .fall | 3, .quadUp => 1
      | 3, .quadDown => -1
      | _, _ => 0
    (c.deb ≠ b → c.heldIn = false → Completes (.debounceChange t k b off) s fun u =>
      ∃ v, TileBecomes t (withChan T k c1) s v ∧
        u = if w.getLsbD 4 && !c1.chatter then
            event v [] 0x8013 (some (BitVec.ofNat 32 (tileNum t))) 0 0
              (leBytes 1 (chNum t k) ++ leBytes 1 b.toNat ++ leBytes 4 off)
          else v) ∧
    (c.deb = b ∨ c.heldIn = true → exec (.debounceChange t k b off) s = .next s) ∧
    (Completes (.chatterWindowEnd t k) s fun u =>
      TileBecomes t (withChan T k c2) (if c.chatter then
          event s [] 0x8014 (some (BitVec.ofNat 32 (tileNum t))) 0 0 (leBytes 1 (chNum t k) ++ leBytes 4 c.chatCnt)
        else s) u) ∧
    (Completes (.countingPulse t k e) s fun u => OnlyTile t s u ∧ u.hubs = s.hubs ∧
      tile u t = withChan T k { c with count := c.count + BitVec.ofInt 32 d, delta := c.delta + d }) ∧
    ((∃ l ∈ seated s, bgTurn s l 1 = false) → exec (.thresholdCalibration t offs) s = .next s) ∧
    ((∀ l ∈ seated s, bgTurn s l 1 = true) → Completes (.thresholdCalibration t offs) s fun u =>
      OnlyTile t { s with lanes := u.lanes } u ∧
      (∀ l, lane u l = { lane s l with bgDone := tblSet (lane s l).bgDone (10 + tileNum t) s.grp.groupTime.toNat }) ∧
      ∀ j, j < 16 → chan (tile u t) j = if isInput T j = true then
          { chan T j with threshold := decide (T.calOk = false ∨ 500 < (offs[j]?).getD 0) } else chan T j) ∧
    exec (.fieldTempMeasurement t deg) s = .next (setTile s t { T with fieldTemp := deg })

/-- Outputs, gloves, cuffs, the field supply and couplers of a tile (R310, R311, R316, R328-R336): what each finding makes
of a channel or a cuff, and what is journaled. -/
def Obligations.TileOutputs : Prop :=
  ∀ (s : State) (t : TileId) (k nodeMv pairMa mv cp : Nat) (g : Fin 2) (opened : Bool) (G : GloveReading)
    (x : TestRun), s.mod.pwrgd = true →
    k < 16 →
    let T := tile s t
    let c := chan T k
    let mode := chMode (chWord T k)
    let b := g == 1
    let q := duoGet T.cuffs b
    let f := (10000 + tblGetD s.grp.settings.isense (chNum t k) 0).toNat
    let voided := c.testing.map fun y : TestRun => { y with isVoid := true }
    let names (j : Nat) : Prop := j < 16 ∧ namesSource t T k j = true
    (T.fieldUp = true → mode = 3 → sourceDown c = true → Completes (.testPulseStart t k) s fun u => OnlyTile t s u ∧
      (∀ j, names j → (chan (tile u t) j).tpFail = true) ∧ (chan (tile u t) k).overload = false) ∧
    (T.fieldUp = true → mode = 2 → (chWord T k).getLsbD 30 = true → sourceDown c = true →
      Completes (.testPulseStart t k) s fun u => OnlyTile t s u ∧ ∀ j, names j → (chan (tile u t) j).tpFail = true) ∧
    (mayTest s t k = true → (mode = 3 ∨ (chWord T k).getLsbD 30 = true → sourceDown c = false) → Completes (.testPulseStart t k) s fun u => OnlyTile t s u ∧
      u.hubs = s.hubs ∧ (chan (tile u t) k).testing = some { dark := nodeOn s t k } ∧
      (∀ j, j ≠ k → chan (tile u t) j = if names j ∧ nodeOn s t k = true then { chan T j with heldIn := true } else chan T j)) ∧
    (c.testing = none → exec (.testPulseEnd t k G) s = .next s) ∧
    (c.testing = some x → Completes (.testPulseEnd t k G) s fun u =>
      let e := chan (tile u t) k
      let half (v : Nat) : Bool := decide (35 * G.lplusMv ≤ 100 * v ∧ 100 * v ≤ 65 * G.lplusMv)
      u = { s with tiles := u.tiles, hubs := u.hubs } ∧ e.testing = none ∧
      (∀ j, names j → (chan (tile u t) j).heldIn = false) ∧
      (x.isVoid || G.isVoid → OnlyTile t s u ∧ e = { c with testing := none, heldIn := c.heldIn && !namesSource t T k k } ∧
        ∀ j, j ≠ k → ¬ names j → chan (tile u t) j = chan T j) ∧
      (x.dark = false → OnlyTile t s u) ∧
      ((x.isVoid || G.isVoid) = false →
        (x.dark = true → e.glove = (c.glove || G.mids.any fun v => !half v) ∧ e.extFeed = c.extFeed ∧
          (f * G.loadMa < 20 * 10000 → e.pairOpen = c.pairOpen) ∧
          (∀ j, names j → (chan T j).heldIn = true → (chan T j).deb = true → (chan (tile u t) j).tpFail =
            (G.rawOn.contains j || ((chan T j).tpFail && chVital T j))) ∧
          ∀ m v, (m, v) ∈ G.nodes → m < 32 → m ≠ chNum t k → (chan (tile s (tileOfCh m)) (m % 16)).extFeed = true → v < 5000 →
            (chan (tile u (tileOfCh m)) (m % 16)).wired = some (chNum t k)) ∧
        (x.dark = false → e.glove = (c.glove || !G.mids.all half || decide (2 * 10000 < f * G.pairMa)) ∧
          e.extFeed = (c.extFeed || (decide (5000 < G.nodeMv) && G.mids.all half && decide (f * G.pairMa ≤ 2 * 10000)))))) ∧
    (mode = 2 → nodeOn s t k = true → Completes (.outputOverload t k) s fun u =>
      TileBecomes t (withChan T k { c with overload := true, offSeen := false }) s u ∧ nodeOn u t k = false) ∧
    (mode = 3 → mitten T = true → nodeOn s t k = true → Completes (.mittenSourceOverload t k) s fun u =>
      TileBecomes t (withChan T k { c with overload := true }) s u ∧ nodeOn u t k = false) ∧
    (cuffShut s t b = true →
      (Completes (.cuffOvercurrent t g) s fun u => TileBecomes t (withCuff T b { q with overcur := true }) s u ∧
        cuffShut u t b = false) ∧
      (Completes (.cuffReadbackCheck t g opened) s fun u => ∃ v, TileBecomes t (withCuff T b { q with openFlt := opened }) s v ∧
        u = if opened then event v [] 0x8016 (some (BitVec.ofNat 32 (tileNum t))) 0 0 (leBytes 1 (2 * tileNum t + b.toNat)) else v)) ∧
    (cuffShut s t b = false →
      exec (.cuffOvercurrent t g) s = .next s ∧ exec (.cuffReadbackCheck t g opened) s = .next s) ∧
    (T.fieldUp = true → mode = 2 → mitten T = false → commandedOn s t k = false →
      (duoGet T.cuffs (decide (8 ≤ k))).forGood = false → 5000 < nodeMv → 10 * 10000 < f * pairMa →
      Completes (.outputUnswitchable t k nodeMv pairMa) s fun u =>
        LossRecorded (chNum t k) s u ∧ (∀ l, 2 * tileNum t + (decide (8 ≤ k)).toNat ∈ (lane u l).nv.cuffHeld) ∧
        (chan (tile u t) k).lost = true ∧ (duoGet (tile u t).cuffs (decide (8 ≤ k))).forGood = true ∧
        u.grp = s.grp ∧ u.mod = s.mod ∧ ∀ j, j ≠ t → tile u j = tile s j) ∧
    (nodeMv ≤ 5000 ∨ f * pairMa ≤ 10 * 10000 ∨ (duoGet T.cuffs (decide (8 ≤ k))).forGood = true → exec (.outputUnswitchable t k nodeMv pairMa) s = .next s) ∧
    (mitten T = false → Completes (.lplusSag t g mv) s fun u => OnlyTile t { s with free := s.free + 1 } u ∧
      let Q := duoGet (tile u t).cuffs b
      Q.mv = mv ∧ (mv < 15000 → Q.release = true ∧ Q.low = true ∧ Q.okSince = none ∧ (vitalOutputs T b = true → Q.sag = true)) ∧
      (15000 ≤ mv → Q.sag = q.sag) ∧
      (mv < 15000 → ∀ j y, j < 16 → decide (8 ≤ j) = b → (chan (tile u t) j).testing = some y → y.isVoid = true) ∧
      (15000 ≤ mv → mv < 19200 → Q.release = q.release ∧ Q.low = true) ∧
      (19200 ≤ mv → Q.release = false ∧ Q.okSince = some (q.okSince.getD s.grp.groupTime.toNat)) ∧
      (19200 ≤ mv → mv < 19700 → Q.low = q.low) ∧ (19700 ≤ mv → Q.low = false) ∧
      ((tile u t).fieldUp = true ↔ 12000 ≤ mv ∨ 12000 ≤ (duoGet T.cuffs (!b)).mv)) ∧
    (mitten T = true → Completes (.lplusSag t g mv) s fun u => OnlyTile t { s with free := s.free + 1 } u ∧ (tile u t).fieldUp = T.fieldUp ∧
      (b = true → (tile u t).stray = decide (5000 < mv)) ∧
      (b = false → (duoGet (tile u t).cuffs b).code = if mv < 20000 then 2 else 0)) ∧
    (T.fieldUp = true → cp < 8 → c.lost = false → cp ∉ c.failCpl → c.spareCpl ≠ some cp →
      (c.spareCpl = none → c.failCpl = [] → Completes (.couplerFailure t k cp) s fun u =>
        TileBecomes t (withChan T k { c with failCpl := [cp], testing := voided }) s u) ∧
      (c.spareCpl.isSome ∨ c.failCpl ≠ [] → Completes (.couplerFailure t k cp) s fun u =>
        LossRecorded (chNum t k) s u ∧ chan (tile u t) k = { c with lost := true, testing := voided })) ∧
    (c.failCpl = [cp] → cp < 7 → Completes (.couplerSpareSwitched t k) s fun u =>
      ∃ v, TileBecomes t (withChan T k { c with failCpl := [], spareCpl := some cp }) s v ∧
        u = event v [] 0x8015 (some (BitVec.ofNat 32 (tileNum t))) 0 0 (leBytes 1 (chNum t k) ++ leBytes 1 cp))

/-- Two-channel functions and drive stops (R352-R354, R363): how samples move a function, and that only an undisturbed round with
agreement enables it; DISCREPANCY_LIMIT finds the samples of the round that ends bring a function's count to m, and it enters FAULT;
DRIVE_STANDSTILL, DRIVE_T_MAX and DRIVE_SPEED_LOST find a drive's SS1 end for that reason, and DRIVE_FB_TIMEOUT the feedback fail for
its time in RUN or STO_WAIT, or come as it should in STO_WAIT; every lane that runs contexts moves alike, and the boundary then finds
it moved (that these commands come just before the boundary is the model's choice, log 142). -/
def Obligations.SafetyFunctions : Prop :=
  ∀ (s : State) (fn drv m : Nat) (f : FnCfg) (x : FnRun) (y : DrvRun) (e : DriveCfg) (C : Cfg) (z : Frozen) (g0 d : Nat) (l : LaneId)
    (before after : List FnSample), s.mod.pwrgd = true →
    let L := lane s l
    let rt := roundTicks s
    let zn := frozenOf L (nextRound s)
    let drives := [Instr.driveStandstill drv, .driveTMax drv, .driveSpeedLost drv, .driveFbTimeout drv]
    let same (u : State) : Prop := u.grp = s.grp ∧ u.tiles = s.tiles ∧ u.mod = s.mod ∧ ∀ k, k ∉ runLanes s → lane u k = lane s k
    (let n (smp : FnSample) := fnStep m x smp
     n .missing = x ∧ (n .ad).c = 0 ∧ (n .ar).c = 0 ∧ (n .x).c = x.c + 1 ∧
     ((n .ad).st = .proofR ↔ x.st = .proofD ∨ x.st = .proofR ∨ x.st = .fault) ∧
     ((n .ad).st = .demand ↔ x.st = .released ∨ x.st = .demand ∨ x.st = .discrepant) ∧
     ((n .ar).st = .released ↔ x.st ≠ .proofD ∧ x.st ≠ .fault) ∧ ((n .ar).st = .fault ↔ x.st = .fault) ∧
     ((n .x).st = .fault ↔ x.st = .fault ∨ m ≤ x.c + 1) ∧
     ((n .x).st = .discrepant ↔ x.c + 1 < m ∧ (x.st = .released ∨ x.st = .demand ∨ x.st = .discrepant))) ∧
    ((fnRound C z f g0 d x).enable = true →
      (fnRound C z f g0 d x).st = .released ∧ FnSample.missing ∉ fnSamples C z f g0 d) ∧
    (¬ Runs s ∨ s.grp.roundFixed = false → ∀ i ∈ Instr.discrepancyLimit fn :: drives, exec i s = .next s) ∧
    (∀ i ∈ Instr.discrepancyLimit fn :: drives, Completes i s same) ∧
    (Runs s → s.grp.roundFixed = true → l ∈ runLanes s → L.cfg.fns.find? (fun a => a.fn == fn) = some f →
      tblGetD L.fns fn {} = x → x.moved ≠ some (nextRound s) →
      fnSamples L.cfg zn f s.grp.groupTime.toNat rt = before ++ FnSample.x :: after →
      fnLimit L.cfg f rt ≤ (before.foldl (fnStep (fnLimit L.cfg f rt)) x).c + 1 →
      (before.foldl (fnStep (fnLimit L.cfg f rt)) x).st ≠ .fault →
      Completes (.discrepancyLimit fn) s fun u => same u ∧ lane u l = { L with fns := (lane u l).fns } ∧
        (∀ n, n ≠ fn → tblGet (lane u l).fns n = tblGet L.fns n) ∧
        ∃ w, tblGet (lane u l).fns fn = some w ∧ w.moved = some (nextRound s) ∧ 1 ≤ w.entered ∧
          (FnSample.ad ∉ after → w.st = .fault ∧ w.enable = false)) ∧
    (Runs s → s.grp.roundFixed = true → l ∈ runLanes s → (drvList L).find? (fun a => a.drv == drv) = some e →
      tblGetD L.drvs drv {} = y → y.moved ≠ some (nextRound s) →
      let el := nextTime s - y.t0
      let v := speedCount L.cfg zn e
      let slow := ∃ n, v = some n ∧ n * 10000 ≤ e.still * rt
      let stood := slow ∧ e.stillRds ≤ y.still + 1
      let breach := ∃ n, v = some n ∧ breaches e n (el - rt) rt = true
      let a := frozenBit L.cfg zn e.fbA
      let b := frozenBit L.cfg zn e.fbB
      let moves (i : Instr) (st : DrvSt) (cause : Nat) : Prop := Completes i s fun u =>
        same u ∧ lane u l = { L with drvs := (lane u l).drvs } ∧
        (∀ n, n ≠ drv → tblGet (lane u l).drvs n = tblGet L.drvs n) ∧
        ∃ w, tblGet (lane u l).drvs drv = some w ∧ w.st = st ∧ w.cause = cause ∧ w.moved = some (nextRound s)
      let stopped (c : Nat) : Nat := if y.cause = 6 then 6 else c
      (y.st = .ss1 → el ≠ 0 → 0 < e.stillRds →
        (stood → moves (.driveStandstill drv) .stoWait (stopped 1)) ∧
        (¬ stood → ¬ breach → 10 * e.tMax ≤ el → moves (.driveTMax drv) .stoWait (stopped 3)) ∧
        (v = none → el < 10 * e.tMax → 1 ≤ y.lost → moves (.driveSpeedLost drv) .stoWait (stopped 4))) ∧
      (y.st = .run → permitOf L e = true → y.stopReq = false → (ctxRun L e.ctx).st = .running →
        (y.fbOk = false → a = true ∨ b = true → fbRounds e rt ≤ y.rounds + 1 → moves (.driveFbTimeout drv) .stoFault 5) ∧
        (y.fbOk = true → (a = true ∧ fbRounds e rt ≤ y.badA) ∨ (b = true ∧ fbRounds e rt ≤ y.badB) →
          moves (.driveFbTimeout drv) .stoFault 5)) ∧
      (y.st = .stoWait →
        ((a && b) = false → fbRounds e rt ≤ y.rounds + 1 → moves (.driveFbTimeout drv) .stoFault 5) ∧
        ((a && b) = true → moves (.driveFbTimeout drv) .stopped y.cause)))

/-! ## Host commands -/

/-- The checks of a command in the order of R402, for every row of R408 and R413: what a hub cannot fetch yet waits in its ring;
header, tag, handle, length, seal and operating state refuse with their status and have no other effect; NOP is skipped
without a reply, and an entry whose opcode R408 does not list is refused with BAD_OPCODE after its header (R392, R396, R399-R403, R407,
R413, R414). -/
def Obligations.CommandRefusals : Prop :=
  ∀ (s : State) (i : Instr) (r : HostRow) (n : Hdr), hostRow i = some r →
    let hd := r.hd
    let o := r.op
    let refused (st : Nat) : Prop := Completes i s fun t => Replied s hd o hd.handle st [] t ∧ OnlyReply hd s t
    let waits (b : State) (e : RingCmd) : State :=
      if hubServes (hub b e.hd.hub) then setHub b e.hd.hub { hub b e.hd.hub with ring := (hub b e.hd.hub).ring ++ [e] } else b
    (s.mod.pwrgd = true → ¬ Fetched s hd r.maxRep r.items → exec i s = .next (waits s ⟨hd, r.maxRep, r.items, o, some i⟩)) ∧
    (Fetched s hd r.maxRep r.items →
      (hd.version ≠ 1 ∨ hd.flagRsv ≠ 0 ∨ hd.status ≠ 0 → refused 0x0015) ∧
      (hd.version = 1 → hd.flagRsv = 0 → hd.status = 0 → tagKnown s hd.hub hd.tag = true → refused 0x0016) ∧
      (GoodHeader s hd →
        (r.ty = none → hd.handle ≠ 0 → refused 0x0012) ∧
        (∀ ty, r.ty = some ty →
          (hd.handle = 0 → refused 0x0012) ∧
          (ty ≠ 0 → handleType hd.handle ≠ ty → refused 0x0012) ∧
          (ty = 0 → handleType hd.handle = 6 → refused 0x0012) ∧
          (hd.handle ≠ 0 → (if ty = 0 then handleType hd.handle ≠ 6 else handleType hd.handle = ty) →
            (∀ x ∈ s.grp.handles, x.server = hd.hub → x.word ≠ hd.handle) →
            ((∃ x ∈ s.grp.handles, x.server = hd.hub ∧ handleType x.word = handleType hd.handle ∧
              handleIdx x.word = handleIdx hd.handle) → refused 0x0013) ∧
            ((∀ x ∈ s.grp.handles, x.server = hd.hub → handleType x.word = handleType hd.handle →
              handleIdx x.word ≠ handleIdx hd.handle) → refused 0x0012))) ∧
        (handleCheck s hd.hub r.ty hd.handle = none →
          (r.len s = false → refused 0x0011) ∧
          (r.len s = true →
            (r.unsealed = true → isSealed s = true → refused 0x0021) ∧
            ((r.unsealed = true → isSealed s = false) → r.allowed s.mod.op = false → refused 0x0020))))) ∧
    (s.mod.pwrgd = true → nextInRing s n = false → exec (.nop n) s = .next (waits s ⟨n, 0, 1, 0, some (.nop n)⟩)) ∧
    (s.mod.pwrgd = true → nextInRing s n = true → Completes (.nop n) s fun t => OnlyReply n s t ∧
      (hub t n.hub).cmdCons = (hub s n.hub).cmdCons + BitVec.ofNat 32 (hdrUnits n) ∧ (hub t n.hub).rpl = (hub s n.hub).rpl ∧
      t.grp = s.grp) ∧
    (∀ (v : BitVec 32) (op : Nat), listedOpcodes.contains op = false →
      let s1 := setHub s n.hub { hub s n.hub with cmdProd := v }
      (Fetched s1 n 0 1 → Completes (.commandDoorbell n.hub v [(op, n)]) s fun t => OnlyReply n s1 t ∧
        Replied s1 n op n.handle (if n.version = 1 ∧ n.flagRsv = 0 ∧ n.status = 0 then 0x0010 else 0x0015) [] t) ∧
      (s.mod.pwrgd = true → hostReach (hub s n.hub) = true → ¬ Fetched s1 n 0 1 →
        exec (.commandDoorbell n.hub v [(op, n)]) s = .next (waits s1 ⟨n, 0, 1, op, none⟩)))

/-- The commands that only read reply with what their rows say and change nothing but the reply; a counter of events that commands
show reads as it stands, any other with a free number of events added (log 80) (R1, R64, R104, R131, R304,
R341, R408, R412, R461, R490). -/
def Obligations.ReadCommands : Prop :=
  ∀ (s : State) (hd : Hdr) (t n : Nat) (ix : List Nat) (before after : Nat) (c : CtxCfg) (v : Word) (x : Session)
    (mask : BitVec 16) (l : LaneId),
    let M := (hub s hd.hub).mirror
    let pass (i : Instr) : Prop := Passes s i hd
    (pass (.identity hd) → ∃ d : List Byte, Answered s (.identity hd) hd 0x0101 d ∧ d.length = 64 ∧
      d.take 11 = [0x4E, 0x58, 0x32, 0x34, 0x30, 0x33, 0x2D, 0x42, 0x31, 0x2D, 0x41] ∧ leAt d 11 5 = 0 ∧
      leAt d 16 2 = 0xB1 ∧ leAt d 28 1 = (isSealed s).toNat ∧
      leAt d 29 1 = (match s.mod.op with | .bench => 0 | .startUp => 1 | .service => 2 | .recovery => 3 | .safe => 4) ∧
      leAt d 30 8 = s.grp.cfg.imageId.toNat ∧ leAt d 38 8 = s.grp.round.toNat ∧
      leAt d 46 4 = s.grp.startCount % 2 ^ 32 ∧ leAt d 50 14 = 0) ∧
    (pass (.laneStatus hd) → Answered s (.laneStatus hd) hd 0x0102
      (leBytes 8 M.lanes.l0.toNat ++ leBytes 8 M.lanes.l1.toNat ++ leBytes 8 M.lanes.l2.toNat ++ leBytes 8 M.lanes.l3.toNat)) ∧
    (pass (.groupStatus hd) → Answered s (.groupStatus hd) hd 0x0103 (leBytes 8 M.group.toNat)) ∧
    (pass (.tileStatus hd t) →
      (t = 0 → Answered s (.tileStatus hd t) hd 0x0104
        (leBytes 8 M.tiles.a.toNat ++ M.chans.a.flatMap fun w => leBytes 2 w.toNat)) ∧
      (t = 1 → Answered s (.tileStatus hd t) hd 0x0104
        (leBytes 8 M.tiles.b.toNat ++ M.chans.b.flatMap fun w => leBytes 2 w.toNat)) ∧
      (1 < t → Refused s (.tileStatus hd t) hd 0x0104 0x0014)) ∧
    (pass (.contextStatus hd n) → Answered s (.contextStatus hd n) hd 0x0105
      (leBytes 8 ((tblGet M.ctxs n).getD (if M.sq = 0 then 0 else BitVec.ofNat 64 (n % 256))).toNat)) ∧
    (pass (.stationStatus hd) → ∀ w, tblGet M.stns (handleIdx hd.handle) = some w →
      Answered s (.stationStatus hd) hd 0x0106 (leBytes 8 w.toNat)) ∧
    (pass (.valueRead hd t n ix) →
      (ctxCfg? s.grp.cfg t = none → Refused s (.valueRead hd t n ix) hd 0x0402 0x0012) ∧
      (ctxCfg? s.grp.cfg t = some c →
        (n = 0 ∨ 32 < n ∨ (∃ k ∈ ix.take n, tunable? s.grp.cfg t k = none) →
          Refused s (.valueRead hd t n ix) hd 0x0402 0x0014) ∧
        (n = 1 → ∀ k u, ix.take 1 = [k] → tunable? s.grp.cfg t k = some u → seated s ≠ [] →
          (∀ a ∈ seated s, heldValue (lane s a) c u = v) → 2 ≤ (seated s).length →
          Answered s (.valueRead hd t n ix) hd 0x0402 (leBytes 4 v.toNat ++ leBytes 4 1)))) ∧
    (pass (.settingGet hd n) →
      (¬ ((1 ≤ n ∧ n ≤ 4) ∨ (0x100 ≤ n ∧ n ≤ 0x11F)) → Refused s (.settingGet hd n) hd 0x0A01 0x0014) ∧
      ((1 ≤ n ∧ n ≤ 4) ∨ (0x100 ≤ n ∧ n ≤ 0x11F) → ∃ saved : Option Word, Answered s (.settingGet hd n) hd 0x0A01
        (leBytes 4 (runningValue s hd.hub n).toNat ++ leBytes 4 (saved.getD 0).toNat ++ leBytes 4 (factoryValue n).toNat ++
          leBytes 4 saved.isSome.toNat) ∧ ∀ a ∈ savedLane s, saved = savedValue s a n)) ∧
    (pass (.updateStatus hd) → s.grp.session = some x → ∃ d : List Byte, Answered s (.updateStatus hd) hd 0x0507 d ∧
      d.length = 32 ∧ leAt d 0 1 = sessCode x.st ∧ leAt d 8 4 = x.next % 2 ^ 32 ∧ leAt d 24 2 = x.cause % 2 ^ 16 ∧
      (x.st = .planned → leAt d 16 8 = x.act.toNat) ∧ (x.st ≠ .planned → leAt d 16 8 = 0) ∧
      ((lane s .l0).nv.retire ≠ 0 → leAt d 1 1 = 6)) ∧
    (pass (.updateStatus hd) → s.grp.session = none → Refused s (.updateStatus hd) hd 0x0507 0x0020) ∧
    (pass (.counterRead hd before after) → setOf s hd = some (laneNum l, mask, false) →
      Answered s (.counterRead hd before after) hd 0x0602 (leBytes 8 before ++ leBytes 8 after ++
        (List.range 16).flatMap fun k => if mask.getLsbD k = true then
          let z := ((lane s l).ctrs.ctr.toList[k]?).getD {}
          leBytes 1 k ++ leBytes 1 z.ovf.toNat ++ leBytes 6 (laneCtrValue s.free (lane s l) k).toNat else [])) ∧
    (n < 16 → laneUnseen (lane s l) n = false →
      laneCtrValue s.free (lane s l) n = (((lane s l).ctrs.ctr.toList[n]?).getD {}).value) ∧
    (pass (.counterRead hd before after) → setOf s hd = some (4 + hubNum (peerHub hd.hub), mask, true) →
      Refused s (.counterRead hd before after) hd 0x0602 0x0020)

/-- Handles, subscriptions, telemetry and counter sets (R403-R410, R433, R437, R459-R461, R501): a create gives a handle of its
type with the slot's generation or is refused, a destroy ends the handle and moves the generation on, and the rest sets its
own values. -/
def Obligations.ChannelsAndCounters : Prop :=
  ∀ (s : State) (hd : Hdr) (cb : CreateBlock) (X : Handle) (code k n before after e : Nat) (sel w0 : Word) (w1 : BitVec 64)
    (mask : BitVec 16) (l : LaneId) (y : Stream),
    let h := hd.hub
    let g := s.grp
    let create := Instr.channelCreate hd cb
    let subs := (openHandle s h hd.handle).elim [] (·.subs)
    (Passes s create hd →
      (createRefusal s h cb = some e → Refused s create hd 0x0201 e) ∧
      (16384 ≤ g.handles.length → ∀ a, cb = .station a → a < 4096 → Refused s create hd 0x0201 0x0030) ∧
      (∀ a, cb = .station a → 4096 ≤ a → Refused s create hd 0x0201 0x0014) ∧
      (∀ a, cb = .station a → (∃ x ∈ g.handles, handleType x.word = 1 ∧ handleIdx x.word = a) → a < 4096 →
        Refused s create hd 0x0201 0x0030) ∧
      (createRefusal s h cb = none → ∃ w idx,
        w = BitVec.ofNat 32 (createType cb * 2 ^ 28 + slotGen g (createType cb) h idx * 2 ^ 20 + idx) ∧
        Completes create s fun t => Replied s hd 0x0201 w 0 [] t ∧
          t.grp = { g with tags0 := t.grp.tags0, tags1 := t.grp.tags1, handles := g.handles ++ [⟨w, h, h, cb, [], false⟩] } ∧
          t.lanes = s.lanes ∧ t.tiles = s.tiles ∧ t.mod = s.mod ∧ hub t (peerHub h) = hub s (peerHub h) ∧
          (∀ a, cb = .station a → idx = a) ∧
          (∀ b m, cb = .eventCh b m → idx < 64 ∧ tblGet (hub t h).evch idx = some { base := b, n := m }) ∧
          (∀ so b m, cb = .telemetry so b m → idx < 16 ∧
            ∃ z, tblGet (hub t h).streams idx = some z ∧ z.handle = w ∧ z.source = so ∧ z.base = b ∧ z.running = false))) ∧
    (Passes s (.channelDestroy hd) hd → openHandle s h hd.handle = some X → X.server = X.hub →
      Completes (.channelDestroy hd) s fun t => (hub t h).rpl.out.getLast? = some (replyOf hd 0x0202 hd.handle 0 []) ∧
        t.tiles = s.tiles ∧ t.mod = s.mod ∧
        t.grp.handles = g.handles.filter (fun z => !(z.word == X.word && z.hub == X.hub)) ∧
        slotGen t.grp (handleType X.word) h (handleIdx X.word) =
          (if slotGen g (handleType X.word) h (handleIdx X.word) = 255 then 1
           else slotGen g (handleType X.word) h (handleIdx X.word) + 1) ∧
        (∀ b m, X.obj = .eventCh b m → tblGet (hub t h).evch (handleIdx X.word) = none) ∧
        (∀ so b m, X.obj = .telemetry so b m → tblGet (hub t h).streams (handleIdx X.word) = none) ∧
        ((∀ so m, X.obj ≠ .counters so m) → t.lanes = s.lanes)) ∧
    (Passes s (.eventSubscribe hd code sel) hd →
      (selectorOk code sel = false → Refused s (.eventSubscribe hd code sel) hd 0x0203 0x0014) ∧
      (selectorOk code sel = true → (code, sel) ∈ subs → Answered s (.eventSubscribe hd code sel) hd 0x0203 []) ∧
      (selectorOk code sel = true → (code, sel) ∉ subs → 256 ≤ subs.length →
        Refused s (.eventSubscribe hd code sel) hd 0x0203 0x0030) ∧
      (selectorOk code sel = true → (code, sel) ∉ subs → subs.length < 256 →
        Completes (.eventSubscribe hd code sel) s fun t => Replied s hd 0x0203 hd.handle 0 [] t ∧
          OnlyReply hd { s with grp := { g with handles := t.grp.handles } } t ∧
          t.grp.handles = g.handles.map fun z =>
            if z.word = hd.handle ∧ z.server = h then { z with subs := z.subs ++ [(code, sel)] } else z)) ∧
    (Passes s (.eventUnsubscribe hd code sel) hd → selectorOk code sel = true →
      Completes (.eventUnsubscribe hd code sel) s fun t => Replied s hd 0x0204 hd.handle 0 [] t ∧
        OnlyReply hd { s with grp := { g with handles := t.grp.handles } } t ∧
        t.grp.handles = g.handles.map fun z =>
          if z.word = hd.handle ∧ z.server = h then { z with subs := z.subs.filter (· ≠ (code, sel)) } else z) ∧
    (Passes s (.telemetryStart hd n) hd →
      (n < 10 ∨ 60000 < n → Refused s (.telemetryStart hd n) hd 0x0701 0x0014) ∧
      (10 ≤ n → n ≤ 60000 → tblGet (hub s h).streams (handleIdx hd.handle) = some y →
        Completes (.telemetryStart hd n) s fun t => Replied s hd 0x0701 hd.handle 0 [] t ∧
          OnlyReply hd (setHub s h { hub s h with streams := (hub t h).streams }) t ∧
          tblGet (hub t h).streams (handleIdx hd.handle) = some { y with running := true, period := n, latest := [] })) ∧
    (Passes s (.telemetryStop hd) hd → tblGet (hub s h).streams (handleIdx hd.handle) = some y →
      Completes (.telemetryStop hd) s fun t => Replied s hd 0x0702 hd.handle 0 [] t ∧
        OnlyReply hd (setHub s h { hub s h with streams := (hub t h).streams }) t ∧
        tblGet (hub t h).streams (handleIdx hd.handle) = some { y with running := false, latest := [] }) ∧
    (setOf s hd = some (laneNum l, mask, false) →
      (Passes s (.counterConfig hd k w0 w1) hd →
        (k < 16 → mask.getLsbD k = true → Completes (.counterConfig hd k w0 w1) s fun t =>
          Replied s hd 0x0601 hd.handle 0 [] t ∧ OnlyReply hd { s with lanes := t.lanes } t ∧
          (∀ a, a ≠ l → lane t a = lane s a) ∧
          lane t l = { lane s l with ctrs := { (lane s l).ctrs with ctr := (lane t l).ctrs.ctr } } ∧
          ∀ j : Fin 16, (lane t l).ctrs.ctr[j] = if j.val = k then
            { (lane s l).ctrs.ctr[j] with sel := selWord true k w0, reload := w1.setWidth 48 } else (lane s l).ctrs.ctr[j]) ∧
        (¬ ((k < 16 ∧ mask.getLsbD k = true) ∨ ((k = 0x20 ∨ k = 0x21) ∧ mask.getLsbD 0 = true)) →
          Refused s (.counterConfig hd k w0 w1) hd 0x0601 0x0014) ∧
        (k = 0x20 → mask.getLsbD 0 = true → Completes (.counterConfig hd k w0 w1) s fun t =>
          Replied s hd 0x0601 hd.handle 0 [] t ∧
          lane t l = { lane s l with ctrs := { (lane s l).ctrs with aStart := w0, aEnd := w1.setWidth 32 } })) ∧
      (Passes s (.counterClear hd before after) hd → Completes (.counterClear hd before after) s fun t =>
        Replied s hd 0x0603 hd.handle 0 (leBytes 8 before ++ leBytes 8 after) t ∧ OnlyReply hd { s with lanes := t.lanes } t ∧
        ∀ j : Fin 16, (lane t l).ctrs.ctr[j] = if mask.getLsbD j.val = true then
          { (lane s l).ctrs.ctr[j] with value := 0, ovf := false } else (lane s l).ctrs.ctr[j]))

/-- Stamped commands (R19, R123, R124, R129-R133, R299-R303, R342, R363, R412): the reply carries the first cycle of the
context, or the first round boundary, that starts at least 1 ms after the stamping; the action waits for the lanes and
nothing else has changed; a service read replies later. -/
def Obligations.StampedCommands : Prop :=
  ∀ (s : State) (hd : Hdr) (n m k rd : Nat) (c : CtxCfg) (chg : List (Nat × Word)) (bs : List Byte) (r : ReqChan)
    (prm : BitVec 16) (v : Word) (z : TileId), hd.us < 100 * roundTicks s →
    let h := hd.hub
    let addr := handleIdx hd.handle
    (FirstCycle s c hd.us k → ctxCfg? s.grp.cfg n = some c →
      (Passes s (.contextStart hd n) hd → Stamped s (.contextStart hd n) hd 0x0301 k (.ctxStart n)) ∧
      (Passes s (.contextStop hd n) hd →
        (c.vital = true → Refused s (.contextStop hd n) hd 0x0302 0x0020) ∧
        (c.vital = false → Stamped s (.contextStop hd n) hd 0x0302 k (.ctxStop n))) ∧
      (Passes s (.contextRestart hd n) hd → Stamped s (.contextRestart hd n) hd 0x0303 k (.ctxRestart n)) ∧
      (Passes s (.valueChange hd n m chg) hd →
        (m = 0 ∨ 32 < m ∨ (∃ x ∈ chg.take m, changeOk s.grp.cfg n x = false) →
          Refused s (.valueChange hd n m chg) hd 0x0401 0x0014) ∧
        (1 ≤ m → m ≤ 32 → (∀ x ∈ chg.take m, changeOk s.grp.cfg n x = true) →
          ((∀ x, s.grp.session = some x → x.st ≠ .planned) →
            Stamped s (.valueChange hd n m chg) hd 0x0401 k (.change n (chg.take m))) ∧
          (∀ x, s.grp.session = some x → x.st = .planned →
            (cycleRound c k < x.act.toNat → Stamped s (.valueChange hd n m chg) hd 0x0401 k (.change n (chg.take m))) ∧
            (x.act.toNat ≤ cycleRound c k → Refused s (.valueChange hd n m chg) hd 0x0401 0x0020))))) ∧
    (ctxCfg? s.grp.cfg n = none → ∀ x ∈ [(Instr.contextStart hd n, 0x0301), (.contextStop hd n, 0x0302),
      (.contextRestart hd n, 0x0303), (.valueChange hd n m chg, 0x0401)], Passes s x.1 hd → Refused s x.1 hd x.2 0x0012) ∧
    (Passes s (.request hd bs) hd → reqChanOf s hd = some r → ctxCfg? s.grp.cfg r.ctx = some c → FirstCycle s c hd.us k →
      (requestsAt s r.ctx r.chan k < r.depth → Stamped s (.request hd bs) hd 0x0801 k (.request r.ctx r.chan bs)) ∧
      ∃ j, k ≤ j ∧ (∀ i, k ≤ i → i < j → r.depth ≤ requestsAt s r.ctx r.chan i) ∧
        Stamped s (.request hd bs) hd 0x0801 j (.request r.ctx r.chan bs)) ∧
    (FirstRound s hd.us rd →
      (Passes s (.tileReset hd n) hd →
        (tileOf? n = some z → Stamped s (.tileReset hd n) hd 0x0905 rd (.tileReset z)) ∧
        (1 < n → Refused s (.tileReset hd n) hd 0x0905 0x0014)) ∧
      (Passes s (.driveReset hd n) hd →
        ((∃ x ∈ s.grp.cfg.drives, x.drv = n) → Stamped s (.driveReset hd n) hd 0x0906 rd (.driveReset n)) ∧
        ((∀ x ∈ s.grp.cfg.drives, x.drv ≠ n) → Refused s (.driveReset hd n) hd 0x0906 0x0014)) ∧
      (Passes s (.settingSet hd n v) hd →
        (settingKnown n = false ∨ settingInRange n v = false → Refused s (.settingSet hd n v) hd 0x0A02 0x0014) ∧
        (settingKnown n = true → settingInRange n v = true →
          (n ≠ 4 → Stamped s (.settingSet hd n v) hd 0x0A02 rd (.setting n v)) ∧
          (n = 4 → Completes (.settingSet hd n v) s fun t => Replied s hd 0x0A02 hd.handle 0 [] t ∧
            OnlyReply hd (setHub s h { hub s h with moderation := v.toNat }) t))) ∧
      (Passes s (.serviceRead hd prm m) hd →
        (svcLenOf s hd < 8 ∨ svcLenOf s hd < m + 8 → Refused s (.serviceRead hd prm m) hd 0x0802 0x0014) ∧
        (8 ≤ svcLenOf s hd → m + 8 ≤ svcLenOf s hd → 4 ≤ svcWaiting s hd →
          Refused s (.serviceRead hd prm m) hd 0x0802 0x0030) ∧
        (8 ≤ svcLenOf s hd → m + 8 ≤ svcLenOf s hd → svcWaiting s hd < 4 →
          Completes (.serviceRead hd prm m) s fun t => (hub t h).rpl = (hub s h).rpl ∧
            Taken s hd 0x0802 (fun x => x.done = false ∧ x.replied = false) t ∧
            OnlyReply hd (setHub (withAction s hd rd (.service addr false prm [] m)) h
              { hub (withAction s hd rd (.service addr false prm [] m)) h with
                pendRd := (hub s h).pendRd ++ [⟨hd.tag, hd.handle, 0x0802, hdrFlags hd⟩] }) t)) ∧
      (Passes s (.serviceWrite hd prm bs) hd →
        ((∃ x ∈ s.grp.cfg.stations, x.addr = addr ∧ x.vital = true) → Refused s (.serviceWrite hd prm bs) hd 0x0803 0x0020) ∧
        ((∀ x ∈ s.grp.cfg.stations, x.addr = addr → x.vital = false) → 8 ≤ svcLenOf s hd → svcWaiting s hd < 4 →
          Completes (.serviceWrite hd prm bs) s fun t => Accepted s hd 0x0803 t ∧
            OnlyReply hd (withAction s hd rd (.service addr true prm bs bs.length)) t)))

/-- Posted commands (R98, R99, R372, R373, R412, R413, R526): ROTATE_NOW, LANE_SELF_TEST, HAT_CONFIRM, GROUP_RESTART,
SETTINGS_SAVE and SETTINGS_FACTORY. -/
def Obligations.PostedCommands : Prop :=
  ∀ (s : State) (hd : Hdr) (n mode : Nat) (hat : BitVec 64) (l p : LaneId),
    let g := s.grp
    (Passes s (.rotateNow hd) hd →
      (rotationOk s = false → Refused s (.rotateNow hd) hd 0x0901 0x0020) ∧
      (rotationOk s = true → g.spare = some p → Completes (.rotateNow hd) s fun t => Accepted s hd 0x0901 t ∧
        t.tiles = s.tiles ∧ t.grp.spare = none ∧ t.grp.seats = g.seats ∧
        (∃ j, t.grp.join = some j ∧ j.joiner = p ∧ j.kind = .rotation ∧ j.leaver = rotationLane s ∧
          j.tag = some (hd.hub, hd.tag)) ∧ ∀ k, k ≠ p → lane t k = lane s k)) ∧
    (Passes s (.laneSelfTest hd n) hd →
      (3 < n → Refused s (.laneSelfTest hd n) hd 0x0902 0x0014) ∧
      (n = laneNum l →
        ((lane s l).nv.retire ≠ 0 → Refused s (.laneSelfTest hd n) hd 0x0902 0x0020) ∧
        (testRefused s l = true → Refused s (.laneSelfTest hd n) hd 0x0902 0x0020) ∧
        (testRefused s l = false →
          ((lane s l).selfTest.running = true → Completes (.laneSelfTest hd n) s fun t => Accepted s hd 0x0902 t ∧
            lane t l = { lane s l with selfTest := { (lane s l).selfTest with
              tags := (lane s l).selfTest.tags ++ [(hd.hub, hd.tag)] } } ∧ ∀ k, k ≠ l → lane t k = lane s k) ∧
          ((lane s l).selfTest.running = false → (lane s l).st ≠ .spareSplit → (lane s l).splitPend = false →
            isSeated s l = false → g.spare ≠ some l →
            Completes (.laneSelfTest hd n) s fun t => Accepted s hd 0x0902 t ∧ (lane t l).st = .selfTest ∧
              (lane t l).selfTest.running = true ∧ (lane t l).selfTest.fenced = false ∧
              (hd.hub, hd.tag) ∈ (lane t l).selfTest.tags ∧ t.grp.seats = g.seats ∧ ∀ k, k ≠ l → lane t k = lane s k) ∧
          ((lane s l).selfTest.running = false → (lane s l).fenced = false → (lane s l).st = .spareSplit →
            (lane s l).splitPend = false → g.spare = some l → isSeated s l = false → Completes (.laneSelfTest hd n) s fun t =>
              (hd.hub, hd.tag) ∈ (lane t l).selfTest.tags ∧ t.grp.seats = g.seats ∧
              ((∃ x ∈ (lane s l).split, x.status = .running) → (lane t l).fenced = false ∧ (lane t l).unsplit = true ∧
                (lane t l).splitPend = true ∧ (lane t l).split = (lane s l).split ∧ ∀ k, k ≠ l → lane t k = lane s k) ∧
              ((∀ x ∈ (lane s l).split, x.status ≠ .running) → (lane t l).fenced = true ∧ (lane t l).fenceCause = 5 ∧
                (lane t l).selfTest.running = true ∧ (lane t l).split = (lane s l).split.filter fun x => x.status == .saved)) ∧
          ((lane s l).selfTest.running = false → (lane s l).fenced = false → (lane s l).st ≠ .spareSplit →
            (lane s l).splitPend = false → isSeated s l = true ∨ g.spare = some l →
            Completes (.laneSelfTest hd n) s fun t => (lane t l).fenced = true ∧ (lane t l).fenceCause = 5 ∧
              (lane t l).gatesOn = false ∧ (lane t l).selfTest.running = true ∧
              (hd.hub, hd.tag) ∈ (lane t l).selfTest.tags ∧
              ∀ st, seatOf g.seats l = some st → seatLane t.grp.seats st = none)))) ∧
    (Passes s (.hatConfirm hd hat) hd →
      ((seated s).length < 3 → Refused s (.hatConfirm hd hat) hd 0x0903 0x0020) ∧
      (3 ≤ (seated s).length → (∀ k ∈ seated s, (lane s k).hat = hat) → Completes (.hatConfirm hd hat) s fun t =>
        Replied s hd 0x0903 hd.handle 0 [] t ∧ OnlyReply hd { s with lanes := t.lanes } t ∧
        ∀ k, lane t k = { lane s k with nv := { (lane s k).nv with sealRec := some { hat := hat, round := g.round } } }) ∧
      (3 ≤ (seated s).length → (∃ k ∈ seated s, (lane s k).hat ≠ hat) → oddHat s = none →
        Refused s (.hatConfirm hd hat) hd 0x0903 0x0014) ∧
      (3 ≤ (seated s).length → (∃ k ∈ seated s, (lane s k).hat ≠ hat) → oddHat s = some l → (lane s l).nv.retire = 0 →
        (lane s l).fenced = false → g.join = none → Completes (.hatConfirm hd hat) s fun t =>
          (lane t l).fenced = true ∧ (lane t l).fenceCause = 2 ∧ ∀ k, (lane t k).nv.sealRec = (lane s k).nv.sealRec)) ∧
    (Passes s (.groupRestart hd) hd → Completes (.groupRestart hd) s fun t => Accepted s hd 0x0904 t ∧
      t.mod.op = .startUp ∧ t.tiles = s.tiles ∧ t.grp.gst = .forming ∧ t.grp.handles = [] ∧ t.grp.actions = [] ∧
      t.grp.round = g.round ∧ t.grp.groupTime = g.groupTime ∧ seated t = [] ∧ t.grp.spare = none ∧
      (∀ k, (lane t k).nv.startCount = (lane s k).nv.startCount + 1 ∧ (lane t k).ctrs = (lane s k).ctrs ∧
        (lane t k).tb = (lane s k).tb ∧ (lane t k).nv.retire = (lane s k).nv.retire ∧ (lane t k).nv.diag = (lane s k).nv.diag) ∧
      ∀ h, ((hub s h).draining = none → (hub t h).running = (hub s h).running) ∧
        ((hub s h).draining = some false → (hub t h).running = false) ∧ (hub t h).draining = none ∧ (hub t h).evch = [] ∧ (hub t h).streams = [] ∧ (hub t h).outbox = []) ∧
    (Passes s (.settingsSave hd) hd → Completes (.settingsSave hd) s fun t => Accepted s hd 0x0A03 t ∧
      OnlyReply hd { s with lanes := t.lanes } t ∧
      ∀ k, lane t k = if (lane s k).nv.retire = 0 then
          { lane s k with writes := (lane s k).writes ++ [⟨.settings, hd.hub, hd.tag, runningAll s hd.hub, []⟩] }
        else lane s k) ∧
    (Passes s (.settingsFactory hd mode) hd →
      (1 < mode → Refused s (.settingsFactory hd mode) hd 0x0A04 0x0014) ∧
      (mode ≤ 1 → Completes (.settingsFactory hd mode) s fun t => Accepted s hd 0x0A04 t ∧ t.tiles = s.tiles ∧ t.mod = s.mod ∧
        (∀ k, lane t k = if (lane s k).nv.retire = 0 then
            { lane s k with writes := (lane s k).writes ++ [⟨.settingsErase, hd.hub, hd.tag, [], []⟩] }
          else lane s k) ∧
        (mode = 0 → OnlyReply hd { s with lanes := t.lanes } t) ∧
        (mode = 1 → (∀ h, (hub t h).moderation = 0) ∧
          ∃ a, (hub t hd.hub).outbox = (hub s hd.hub).outbox ++ [a] ∧ a.kind = .factory ∧ a.tag = hd.tag)))

/-- Updating by commands (R468-R475, R483, R489): opening, downloading, verifying, planning, confirming and aborting a
session, each only in its states; a block is answered only when the lanes have journalled it. -/
def Obligations.UpdateCommands : Prop :=
  ∀ (s : State) (hd : Hdr) (hdr data : List Byte) (no len c : Nat) (addr : BitVec 64) (x : Session) (act : BitVec 64),
    let g := s.grp
    let live (l : LaneId) : Prop := (lane s l).nv.retire = 0
    (Passes s (.updateOpen hd hdr) hd →
      (g.session = none → openCause s hdr = some c → Completes (.updateOpen hd hdr) s fun t =>
        Replied s hd 0x0501 hd.handle 0x0060 (leBytes 2 c) t ∧ OnlyReply hd s t) ∧
      (g.session = none → openCause s hdr = none → g.handles.length < 16384 → ∃ w, Completes (.updateOpen hd hdr) s fun t =>
        Replied s hd 0x0501 w 0 [] t ∧ t.tiles = s.tiles ∧ t.mod = s.mod ∧
        (∃ y, t.grp.session = some y ∧ y.st = .download ∧ y.next = 0 ∧ y.handle = w ∧ y.hub = hd.hub ∧ y.hdr.raw = hdr ∧
          y.expHash = BitVec.ofNat 256 (leAt hdr 144 32)) ∧
        (∃ idx, w = BitVec.ofNat 32 (6 * 2 ^ 28 + slotGen g 6 hd.hub idx * 2 ^ 20 + idx)) ∧
        t.grp.handles = g.handles ++ [⟨w, hd.hub, hd.hub, .other 6, [], false⟩] ∧
        (∀ l, live l → (lane t l).nv.staged = [] ∧ (lane t l).nv.sess.isSome) ∧ ∀ l, ¬ live l → lane t l = lane s l) ∧
      (g.session = some x → x.hdr.raw = hdr → 16384 ≤ (closeSess g).handles.length →
        Refused s (.updateOpen hd hdr) hd 0x0501 0x0030) ∧
      (g.session = some x → x.hdr.raw = hdr → (closeSess g).handles.length < 16384 → ∃ w, Completes (.updateOpen hd hdr) s fun t => Replied s hd 0x0501 w 0 [] t ∧
        t.lanes = s.lanes ∧ t.tiles = s.tiles ∧ t.mod = s.mod ∧ t.grp.session = some { x with handle := w, hub := hd.hub }) ∧
      (g.session = some x → x.hdr.raw ≠ hdr → ∃ a, 1 ≤ a ∧ a ≤ 6 ∧
        Completes (.updateOpen hd hdr) s fun t => Replied s hd 0x0501 hd.handle 0x0060 (leBytes 2 a) t ∧ OnlyReply hd s t)) ∧
    (Passes s (.updateBlock hd no ⟨len, addr⟩ data) hd →
      ((∀ y, g.session = some y → y.st ≠ .download) → Refused s (.updateBlock hd no ⟨len, addr⟩ data) hd 0x0502 0x0020) ∧
      (g.session = some x → x.st = .download →
        (no ≠ x.next ∨ x.hdr.maxBlock < len ∨ data.length ≠ len ∨ sha256Num data ≠ x.expHash →
          Refused s (.updateBlock hd no ⟨len, addr⟩ data) hd 0x0502 0x0014) ∧
        (no = x.next → len ≤ x.hdr.maxBlock → data.length = len → sha256Num data = x.expHash →
          Completes (.updateBlock hd no ⟨len, addr⟩ data) s fun t => (hub t hd.hub).rpl = (hub s hd.hub).rpl ∧
            Taken s hd 0x0502 (fun r => r.done = false ∧ r.replied = false) t ∧ t.tiles = s.tiles ∧ t.mod = s.mod ∧
            (∃ y, t.grp.session = some y ∧ y.next = x.next + 1 ∧ y.hdr = x.hdr ∧
              y.expHash = BitVec.ofNat 256 (leAt data (data.length - 32) 32) ∧
              (y.st = .applying ↔ x.next + 1 = x.hdr.blocks)) ∧
            ∀ l, (¬ live l → lane t l = lane s l) ∧
              (live l → (lane s l).selfTest.running = false → (lane s l).fenced = false → (lane s l).upd.missed = false →
                lane t l = { lane s l with writes := (lane s l).writes ++ [⟨.journalBlock, hd.hub, hd.tag, [], data⟩] }) ∧
              (live l → (lane s l).selfTest.running = true ∨ (lane s l).fenced = true ∨ (lane s l).upd.missed = true →
                lane t l = { lane s l with upd := { (lane s l).upd with missed := true } })))) ∧
    (g.session = some x →
      (Passes s (.updateVerify hd) hd →
        (x.st ≠ .applying → Refused s (.updateVerify hd) hd 0x0503 0x0020) ∧
        (x.st = .applying → Completes (.updateVerify hd) s fun t => Accepted s hd 0x0503 t ∧ t.tiles = s.tiles ∧
          t.grp.session = some { x with st := .verifying, vTag := some (hd.hub, hd.tag) })) ∧
      (Passes s (.updatePlan hd act) hd →
        (x.st ≠ .verified → Refused s (.updatePlan hd act) hd 0x0504 0x0020) ∧
        (x.st = .verified →
          (act.toNat < x.hdr.notBefore.toNat ∨ act.toNat < g.round.toNat + 200 ∨
              (act.toNat - g.round.toNat) * roundTicks s < 20000 ∨
              7 * 864000000 < (act.toNat - g.round.toNat) * roundTicks s ∨
              (∃ z ∈ g.cfg.ctxs, z.vital = true ∧ z.present = true ∧ z.num ≠ 0 ∧ startsAt z act.toNat = false) →
            Refused s (.updatePlan hd act) hd 0x0504 0x0014) ∧
          (planOk s x.hdr act.toNat = true → Completes (.updatePlan hd act) s fun t =>
            Replied s hd 0x0504 hd.handle 0 (leBytes 8 act.toNat) t ∧ t.tiles = s.tiles ∧ t.mod = s.mod ∧
            t.grp.actAt = some act ∧ t.grp.session = some { x with st := .planned, act := act }))) ∧
      (Passes s (.updateConfirm hd) hd →
        (x.st ≠ .probation → Refused s (.updateConfirm hd) hd 0x0505 0x0020) ∧
        (x.st = .probation → Completes (.updateConfirm hd) s fun t => Accepted s hd 0x0505 t ∧ t.tiles = s.tiles ∧
          t.grp.session = some { x with cTag := some (hd.hub, hd.tag) } ∧
          ∀ l, (live l → ∃ q ∈ (lane t l).writes, q.what = .confirmed ∧ q.tag = hd.tag) ∧
            (¬ live l → lane t l = lane s l))) ∧
      (Passes s (.updateAbort hd) hd →
        (x.st = .planned ∨ x.st = .probation → Refused s (.updateAbort hd) hd 0x0506 0x0020) ∧
        (x.st ≠ .planned → x.st ≠ .probation → Completes (.updateAbort hd) s fun t =>
          (hub t hd.hub).rpl.out.getLast? = some (replyOf hd 0x0506 hd.handle 0 []) ∧ t.grp.session = none ∧ t.grp.actAt = none ∧ t.tiles = s.tiles ∧
          ∀ l, live l → (lane t l).nv.staged = [] ∧ (lane t l).nv.sess = none ∧
            inactiveBank (lane t l).nv = {} ∧ activeBank (lane t l).nv = activeBank (lane s l).nv)))

/-! ## The whole machine -/

/-- The encodings of function-block code are one to one (R143-R145, R150-R182): a well-formed instruction's word decodes to the
instruction, and a word that decodes at all is the word of the instruction it decodes to. -/
def Obligations.DecodeAndEncodeAgree : Prop :=
  (∀ (i : Instr) (w : Word), encodeFb i = some w → wfFb i = true → decodeFbWord (fbLane i) w = some i) ∧
  ∀ (l : LaneId) (w : Word) (i : Instr), decodeFbWord l w = some i → encodeFb i = some w ∧ wfFb i = true ∧ fbLane i = l

/-- Words written out bit by bit from R143, R144 and the tables decode to the instructions they stand for; the all-zero word,
a reserved opcode, a func no table lists, a register field that must be 0 and a long shift amount do not (R145). -/
def Obligations.SpelledOutWords : Prop :=
  ∀ l : LaneId,
    decodeFbWord l 0b000001_00011_00001_00010_00000000000 = some (.add l 3 1 2) ∧
    decodeFbWord l 0b000010_00101_00100_111111111111_0000 = some (.addi l 5 4 0xFFF) ∧
    decodeFbWord l 0b000100_00111_00000000000000000001_0 = some (.lui l 7 1) ∧
    decodeFbWord l 0b000011_01000_01001_000000010000_1101 = some (.st l true 8 9 16) ∧
    decodeFbWord l 0b000101_00010_00001_111111111110_0001 = some (.bne l 1 2 0xFFE) ∧
    decodeFbWord l 0b000110_0001_0000000000000000000100 = some (.jsr l 4) ∧
    decodeFbWord l 0b000111_000000000101_00000000000010 = some (.icall l 5 2) ∧
    decodeFbWord l 0b001000_00110_00000000000100000_0101 = some (.pld l 6 32 5) ∧
    decodeFbWord l 0b001001_00110_00000000000100000_0010 = some (.pst l 6 32 2) ∧
    decodeFbWord l 0b001010_00100_00101_000000001000_0000 = some (.ton l 4 5 8) ∧
    decodeFbWord l 0b001011_00001_00000_000000000011_0001 = some (.pmrd l 1 3 true) ∧
    decodeFbWord l 0b001100_00000_00000_00000_00000000000 = some (.ret l) ∧
    decodeFbWord l 0 = none ∧
    decodeFbWord l 0b001101_00000_00000_00000_00000000001 = none ∧
    decodeFbWord l 0b000001_00011_00001_00010_00000001000 = none ∧
    decodeFbWord l 0b000001_00011_00001_00010_00000000111 = none ∧
    decodeFbWord l 0b000010_00101_00100_000000100000_0100 = none

/-- A step takes the command at the front of the queue and is that command's effect on the state with the queue's rest; on an
empty queue a hub fetches the first command that waits in its ring, H0 before H1, once it can, and else the module idles (log 1,
log 152). -/
def Obligations.StepRunsTheFrontCommand : Prop :=
  (∀ (c : Instr) (r : List Instr) (s : State), step { s with pending := c :: r } = exec c { s with pending := r }) ∧
  ∀ (s : State) (h : HubId) (hd : Hdr) (i : Instr) (m k op : Nat) (r : List RingCmd), s.pending = [] →
    ((hub s .h0).ring = [] → (hub s .h1).ring = [] → step s = .next s) ∧
    (s.mod.pwrgd = false → step s = .next s) ∧
    (let taken := setHub s h { hub s h with ring := r, due := true }
     (hub s h).ring = ⟨hd, m, k, op, some i⟩ :: r → op ≠ 0 → hd.hub = h → Fetched taken hd m k →
      (h = .h0 ∨ (hub s .h0).ring = []) → step s = exec i taken)

/-- The module in reset (R542, R545): PWRGD low, no command waits, every lane's gates are released and none is seated, no
tile's cuff is closed, no ring runs, TALERT_N is released, and every memory is in its canonical form. -/
def Obligations.ResetState : Prop :=
  let s := State.reset
  s.mod.pwrgd = false ∧ s.pending = [] ∧ s.mod.talertN = true ∧ s.grp.gst = .forming ∧ seated s = [] ∧ s.grp.handles = [] ∧
    (∀ l, (lane s l).gatesOn = false ∧ (lane s l).cur = none ∧ (lane s l).st = .boot) ∧
    (∀ t b, (duoGet (tile s t).cuffs b).closed = false) ∧
    (∀ h, (hub s h).running = false ∧ (hub s h).enable = false ∧ (hub s h).fwRunning = false) ∧
    (∀ h, ∀ v ∈ (hub s h).vecs.toList, v.sent = 0 ∧ v.pending = false) ∧ MemoryCanonical s

/-- Every step, whatever command it runs, keeps every lane's SRAM, both banks of its flash and a join's snapshot in canonical
form: two memories with the same bytes are the same data. -/
def Obligations.MemoryStaysCanonical : Prop :=
  ∀ s t : State, MemoryCanonical s → step s = .next t → MemoryCanonical t
end

