-- ==== Sys2Proof/Laws/Bytes.lean ====
section
/-! SUPPORT. Little-endian numbers in byte lists: what is read where a number was written. -/

namespace Sys2Proof.Machine

open Sys2Proof

@[simp] theorem leBytes_length (n v : Nat) : (leBytes n v).length = n := by
  induction n generalizing v with
  | zero => rfl
  | succ n ih => simp [leBytes, ih]

/-- A number read back from its own n bytes. -/
theorem leNat_leBytes (n v : Nat) : leNat (leBytes n v) = v % 256 ^ n := by
  induction n generalizing v with
  | zero => simp [leBytes, leNat, Nat.mod_one]
  | succ n ih =>
    simp only [leBytes, leNat, ih, BitVec.toNat_ofNat]
    rw [show 256 ^ (n + 1) = 256 * 256 ^ n from Nat.pow_succ', Nat.mod_mul]

@[simp] theorem sliceBytes_length (bs : List Byte) (off n : Nat) : (sliceBytes bs off n).length = n := by
  simp only [sliceBytes, List.length_append, List.length_take, List.length_drop, List.length_replicate]; omega

/-- A slice that lies within the list. -/
theorem sliceBytes_mid (a b c : List Byte) (off n : Nat) (ha : a.length = off) (hb : b.length = n) :
    sliceBytes (a ++ b ++ c) off n = b := by
  subst ha hb
  simp [sliceBytes]

/-- A number read where it was written. -/
theorem leAt_mid (a c : List Byte) (off n v : Nat) (ha : a.length = off) :
    leAt (a ++ leBytes n v ++ c) off n = v % 256 ^ n := by
  rw [leAt, sliceBytes_mid a _ c off n ha (leBytes_length n v), leNat_leBytes]

/-- A number read from bytes in which it is all that stands there. -/
theorem leAt_eq (bs a c : List Byte) (off n v : Nat) (h : bs = a ++ leBytes n v ++ c) (ha : a.length = off) :
    leAt bs off n = v % 256 ^ n := h ▸ leAt_mid a c off n v ha

/-- A list of its own length is its own slice. -/
theorem sliceBytes_all (bs : List Byte) (n : Nat) (h : bs.length = n) : sliceBytes bs 0 n = bs := by
  subst h; simp [sliceBytes]

end Sys2Proof.Machine
end

