-- ==== Sys2Proof/Laws/Decode.lean ====
section
/-! SUPPORT. The fields of a word of function-block code built from its parts are those parts (R143). -/

namespace Sys2Proof

/-- The number of two joined bit strings. -/
theorem toNat_joined {m n : Nat} (x : BitVec m) (y : BitVec n) : (x ++ y).toNat = x.toNat * 2 ^ n + y.toNat := by
  rw [BitVec.toNat_append, ← Nat.shiftLeft_add_eq_or_of_lt y.isLt, Nat.shiftLeft_eq]

/-- A word of the family as a number. -/
theorem famA_toNat (op : BitVec 6) (d : Reg) (a : Reg) (b : Reg) (f : BitVec 11) :
    (famA op d a b f).toNat = (((op.toNat * 2 ^ 5 + d.toNat) * 2 ^ 5 + a.toNat) * 2 ^ 5 + b.toNat) * 2 ^ 11 + f.toNat := by
  have e : (famA op d a b f).toNat = (op ++ d ++ a ++ b ++ f).toNat := rfl
  rw [e, toNat_joined, toNat_joined, toNat_joined, toNat_joined]

@[simp] theorem fOp_famA (op : BitVec 6) (d : Reg) (a : Reg) (b : Reg) (f : BitVec 11) :
    fOp (famA op d a b f) = op := by
  apply BitVec.eq_of_toNat_eq
  have h0 := op.isLt; have h1 := d.isLt; have h2 := a.isLt; have h3 := b.isLt; have h4 := f.isLt
  rw [fOp, BitVec.extractLsb'_toNat, famA_toNat, Nat.shiftRight_eq_div_pow]
  omega

@[simp] theorem fRd_famA (op : BitVec 6) (d : Reg) (a : Reg) (b : Reg) (f : BitVec 11) :
    fRd (famA op d a b f) = d := by
  apply BitVec.eq_of_toNat_eq
  have h0 := op.isLt; have h1 := d.isLt; have h2 := a.isLt; have h3 := b.isLt; have h4 := f.isLt
  rw [fRd, BitVec.extractLsb'_toNat, famA_toNat, Nat.shiftRight_eq_div_pow]
  omega

@[simp] theorem fRs1_famA (op : BitVec 6) (d : Reg) (a : Reg) (b : Reg) (f : BitVec 11) :
    fRs1 (famA op d a b f) = a := by
  apply BitVec.eq_of_toNat_eq
  have h0 := op.isLt; have h1 := d.isLt; have h2 := a.isLt; have h3 := b.isLt; have h4 := f.isLt
  rw [fRs1, BitVec.extractLsb'_toNat, famA_toNat, Nat.shiftRight_eq_div_pow]
  omega

@[simp] theorem fRs2_famA (op : BitVec 6) (d : Reg) (a : Reg) (b : Reg) (f : BitVec 11) :
    fRs2 (famA op d a b f) = b := by
  apply BitVec.eq_of_toNat_eq
  have h0 := op.isLt; have h1 := d.isLt; have h2 := a.isLt; have h3 := b.isLt; have h4 := f.isLt
  rw [fRs2, BitVec.extractLsb'_toNat, famA_toNat, Nat.shiftRight_eq_div_pow]
  omega

@[simp] theorem fFuncA_famA (op : BitVec 6) (d : Reg) (a : Reg) (b : Reg) (f : BitVec 11) :
    fFuncA (famA op d a b f) = f := by
  apply BitVec.eq_of_toNat_eq
  have h0 := op.isLt; have h1 := d.isLt; have h2 := a.isLt; have h3 := b.isLt; have h4 := f.isLt
  rw [fFuncA, BitVec.extractLsb'_toNat, famA_toNat, Nat.shiftRight_eq_div_pow]
  omega

/-- A word of the family as a number. -/
theorem famB_toNat (op : BitVec 6) (d : Reg) (a : Reg) (i : BitVec 12) (g : BitVec 4) :
    (famB op d a i g).toNat = (((op.toNat * 2 ^ 5 + d.toNat) * 2 ^ 5 + a.toNat) * 2 ^ 12 + i.toNat) * 2 ^ 4 + g.toNat := by
  have e : (famB op d a i g).toNat = (op ++ d ++ a ++ i ++ g).toNat := rfl
  rw [e, toNat_joined, toNat_joined, toNat_joined, toNat_joined]

@[simp] theorem fOp_famB (op : BitVec 6) (d : Reg) (a : Reg) (i : BitVec 12) (g : BitVec 4) :
    fOp (famB op d a i g) = op := by
  apply BitVec.eq_of_toNat_eq
  have h0 := op.isLt; have h1 := d.isLt; have h2 := a.isLt; have h3 := i.isLt; have h4 := g.isLt
  rw [fOp, BitVec.extractLsb'_toNat, famB_toNat, Nat.shiftRight_eq_div_pow]
  omega

@[simp] theorem fRd_famB (op : BitVec 6) (d : Reg) (a : Reg) (i : BitVec 12) (g : BitVec 4) :
    fRd (famB op d a i g) = d := by
  apply BitVec.eq_of_toNat_eq
  have h0 := op.isLt; have h1 := d.isLt; have h2 := a.isLt; have h3 := i.isLt; have h4 := g.isLt
  rw [fRd, BitVec.extractLsb'_toNat, famB_toNat, Nat.shiftRight_eq_div_pow]
  omega

@[simp] theorem fRs1_famB (op : BitVec 6) (d : Reg) (a : Reg) (i : BitVec 12) (g : BitVec 4) :
    fRs1 (famB op d a i g) = a := by
  apply BitVec.eq_of_toNat_eq
  have h0 := op.isLt; have h1 := d.isLt; have h2 := a.isLt; have h3 := i.isLt; have h4 := g.isLt
  rw [fRs1, BitVec.extractLsb'_toNat, famB_toNat, Nat.shiftRight_eq_div_pow]
  omega

@[simp] theorem fImm12_famB (op : BitVec 6) (d : Reg) (a : Reg) (i : BitVec 12) (g : BitVec 4) :
    fImm12 (famB op d a i g) = i := by
  apply BitVec.eq_of_toNat_eq
  have h0 := op.isLt; have h1 := d.isLt; have h2 := a.isLt; have h3 := i.isLt; have h4 := g.isLt
  rw [fImm12, BitVec.extractLsb'_toNat, famB_toNat, Nat.shiftRight_eq_div_pow]
  omega

@[simp] theorem fFuncB_famB (op : BitVec 6) (d : Reg) (a : Reg) (i : BitVec 12) (g : BitVec 4) :
    fFuncB (famB op d a i g) = g := by
  apply BitVec.eq_of_toNat_eq
  have h0 := op.isLt; have h1 := d.isLt; have h2 := a.isLt; have h3 := i.isLt; have h4 := g.isLt
  rw [fFuncB, BitVec.extractLsb'_toNat, famB_toNat, Nat.shiftRight_eq_div_pow]
  omega

/-- A word of the family as a number. -/
theorem famC_toNat (op : BitVec 6) (d : Reg) (j : BitVec 20) (c : BitVec 1) :
    (famC op d j c).toNat = ((op.toNat * 2 ^ 5 + d.toNat) * 2 ^ 20 + j.toNat) * 2 ^ 1 + c.toNat := by
  have e : (famC op d j c).toNat = (op ++ d ++ j ++ c).toNat := rfl
  rw [e, toNat_joined, toNat_joined, toNat_joined]

@[simp] theorem fOp_famC (op : BitVec 6) (d : Reg) (j : BitVec 20) (c : BitVec 1) :
    fOp (famC op d j c) = op := by
  apply BitVec.eq_of_toNat_eq
  have h0 := op.isLt; have h1 := d.isLt; have h2 := j.isLt; have h3 := c.isLt
  rw [fOp, BitVec.extractLsb'_toNat, famC_toNat, Nat.shiftRight_eq_div_pow]
  omega

@[simp] theorem fRd_famC (op : BitVec 6) (d : Reg) (j : BitVec 20) (c : BitVec 1) :
    fRd (famC op d j c) = d := by
  apply BitVec.eq_of_toNat_eq
  have h0 := op.isLt; have h1 := d.isLt; have h2 := j.isLt; have h3 := c.isLt
  rw [fRd, BitVec.extractLsb'_toNat, famC_toNat, Nat.shiftRight_eq_div_pow]
  omega

@[simp] theorem fImm20_famC (op : BitVec 6) (d : Reg) (j : BitVec 20) (c : BitVec 1) :
    fImm20 (famC op d j c) = j := by
  apply BitVec.eq_of_toNat_eq
  have h0 := op.isLt; have h1 := d.isLt; have h2 := j.isLt; have h3 := c.isLt
  rw [fImm20, BitVec.extractLsb'_toNat, famC_toNat, Nat.shiftRight_eq_div_pow]
  omega

@[simp] theorem fFuncC_famC (op : BitVec 6) (d : Reg) (j : BitVec 20) (c : BitVec 1) :
    fFuncC (famC op d j c) = c := by
  apply BitVec.eq_of_toNat_eq
  have h0 := op.isLt; have h1 := d.isLt; have h2 := j.isLt; have h3 := c.isLt
  rw [fFuncC, BitVec.extractLsb'_toNat, famC_toNat, Nat.shiftRight_eq_div_pow]
  omega

/-- A word of the family as a number. -/
theorem famD_toNat (op : BitVec 6) (d : Reg) (p : BitVec 17) (g : BitVec 4) :
    (famD op d p g).toNat = ((op.toNat * 2 ^ 5 + d.toNat) * 2 ^ 17 + p.toNat) * 2 ^ 4 + g.toNat := by
  have e : (famD op d p g).toNat = (op ++ d ++ p ++ g).toNat := rfl
  rw [e, toNat_joined, toNat_joined, toNat_joined]

@[simp] theorem fOp_famD (op : BitVec 6) (d : Reg) (p : BitVec 17) (g : BitVec 4) :
    fOp (famD op d p g) = op := by
  apply BitVec.eq_of_toNat_eq
  have h0 := op.isLt; have h1 := d.isLt; have h2 := p.isLt; have h3 := g.isLt
  rw [fOp, BitVec.extractLsb'_toNat, famD_toNat, Nat.shiftRight_eq_div_pow]
  omega

@[simp] theorem fRd_famD (op : BitVec 6) (d : Reg) (p : BitVec 17) (g : BitVec 4) :
    fRd (famD op d p g) = d := by
  apply BitVec.eq_of_toNat_eq
  have h0 := op.isLt; have h1 := d.isLt; have h2 := p.isLt; have h3 := g.isLt
  rw [fRd, BitVec.extractLsb'_toNat, famD_toNat, Nat.shiftRight_eq_div_pow]
  omega

@[simp] theorem fPoint_famD (op : BitVec 6) (d : Reg) (p : BitVec 17) (g : BitVec 4) :
    fPoint (famD op d p g) = p := by
  apply BitVec.eq_of_toNat_eq
  have h0 := op.isLt; have h1 := d.isLt; have h2 := p.isLt; have h3 := g.isLt
  rw [fPoint, BitVec.extractLsb'_toNat, famD_toNat, Nat.shiftRight_eq_div_pow]
  omega

@[simp] theorem fFuncB_famD (op : BitVec 6) (d : Reg) (p : BitVec 17) (g : BitVec 4) :
    fFuncB (famD op d p g) = g := by
  apply BitVec.eq_of_toNat_eq
  have h0 := op.isLt; have h1 := d.isLt; have h2 := p.isLt; have h3 := g.isLt
  rw [fFuncB, BitVec.extractLsb'_toNat, famD_toNat, Nat.shiftRight_eq_div_pow]
  omega

/-- A word of the family as a number. -/
theorem famE_toNat (op : BitVec 6) (g : BitVec 4) (k : BitVec 22) :
    (famE op g k).toNat = (op.toNat * 2 ^ 4 + g.toNat) * 2 ^ 22 + k.toNat := by
  have e : (famE op g k).toNat = (op ++ g ++ k).toNat := rfl
  rw [e, toNat_joined, toNat_joined]

@[simp] theorem fOp_famE (op : BitVec 6) (g : BitVec 4) (k : BitVec 22) :
    fOp (famE op g k) = op := by
  apply BitVec.eq_of_toNat_eq
  have h0 := op.isLt; have h1 := g.isLt; have h2 := k.isLt
  rw [fOp, BitVec.extractLsb'_toNat, famE_toNat, Nat.shiftRight_eq_div_pow]
  omega

@[simp] theorem fFuncE_famE (op : BitVec 6) (g : BitVec 4) (k : BitVec 22) :
    fFuncE (famE op g k) = g := by
  apply BitVec.eq_of_toNat_eq
  have h0 := op.isLt; have h1 := g.isLt; have h2 := k.isLt
  rw [fFuncE, BitVec.extractLsb'_toNat, famE_toNat, Nat.shiftRight_eq_div_pow]
  omega

@[simp] theorem fImm22_famE (op : BitVec 6) (g : BitVec 4) (k : BitVec 22) :
    fImm22 (famE op g k) = k := by
  apply BitVec.eq_of_toNat_eq
  have h0 := op.isLt; have h1 := g.isLt; have h2 := k.isLt
  rw [fImm22, BitVec.extractLsb'_toNat, famE_toNat, Nat.shiftRight_eq_div_pow]
  omega

/-- A word of the family as a number. -/
theorem famF_toNat (op : BitVec 6) (ty : BitVec 12) (o : BitVec 14) :
    (famF op ty o).toNat = (op.toNat * 2 ^ 12 + ty.toNat) * 2 ^ 14 + o.toNat := by
  have e : (famF op ty o).toNat = (op ++ ty ++ o).toNat := rfl
  rw [e, toNat_joined, toNat_joined]

@[simp] theorem fOp_famF (op : BitVec 6) (ty : BitVec 12) (o : BitVec 14) :
    fOp (famF op ty o) = op := by
  apply BitVec.eq_of_toNat_eq
  have h0 := op.isLt; have h1 := ty.isLt; have h2 := o.isLt
  rw [fOp, BitVec.extractLsb'_toNat, famF_toNat, Nat.shiftRight_eq_div_pow]
  omega

@[simp] theorem fType_famF (op : BitVec 6) (ty : BitVec 12) (o : BitVec 14) :
    fType (famF op ty o) = ty := by
  apply BitVec.eq_of_toNat_eq
  have h0 := op.isLt; have h1 := ty.isLt; have h2 := o.isLt
  rw [fType, BitVec.extractLsb'_toNat, famF_toNat, Nat.shiftRight_eq_div_pow]
  omega

@[simp] theorem fOff_famF (op : BitVec 6) (ty : BitVec 12) (o : BitVec 14) :
    fOff (famF op ty o) = o := by
  apply BitVec.eq_of_toNat_eq
  have h0 := op.isLt; have h1 := ty.isLt; have h2 := o.isLt
  rw [fOff, BitVec.extractLsb'_toNat, famF_toNat, Nat.shiftRight_eq_div_pow]
  omega

end Sys2Proof
end

