-- ==== Sys2Proof/Laws/State.lean ====
section
/-! SUPPORT. What each named update of the state leaves and what it writes: one lemma per field per update. -/

namespace Sys2Proof.Machine

open Sys2Proof

/-! ## Lanes -/

@[simp] theorem quadGet_quadSet_same {α : Type} (q : Quad α) (l : LaneId) (x : α) : quadGet (quadSet q l x) l = x := by
  cases l <;> rfl

theorem quadGet_quadSet {α : Type} (q : Quad α) (l k : LaneId) (x : α) :
    quadGet (quadSet q l x) k = if k = l then x else quadGet q k := by
  cases l <;> cases k <;> rfl

@[simp] theorem quadSet_quadGet {α : Type} (q : Quad α) (l : LaneId) : quadSet q l (quadGet q l) = q := by
  cases l <;> rfl

@[simp] theorem lane_setLane_same (s : State) (l : LaneId) (L : Lane) : lane (setLane s l L) l = L := by
  cases l <;> rfl

theorem lane_setLane (s : State) (l k : LaneId) (L : Lane) :
    lane (setLane s l L) k = if k = l then L else lane s k := by
  cases l <;> cases k <;> rfl

theorem lane_setLane_ne (s : State) {l k : LaneId} (L : Lane) (h : k ≠ l) : lane (setLane s l L) k = lane s k := by
  simp [lane_setLane, h]

@[simp] theorem lane_modLane_same (s : State) (l : LaneId) (f : Lane → Lane) : lane (modLane s l f) l = f (lane s l) := by
  simp [modLane]

theorem lane_modLane (s : State) (l k : LaneId) (f : Lane → Lane) :
    lane (modLane s l f) k = if k = l then f (lane s l) else lane s k := by
  simp [modLane, lane_setLane]

theorem lane_modLane_ne (s : State) {l k : LaneId} (f : Lane → Lane) (h : k ≠ l) :
    lane (modLane s l f) k = lane s k := by
  simp [lane_modLane, h]

@[simp] theorem lane_mk (p : List Instr) (n : Nat) (m : Mod) (g : Group) (q : Quad Lane) (h : Duo Hub) (t : Duo Tile)
    (l : LaneId) : lane ⟨p, n, m, g, q, h, t⟩ l = quadGet q l := rfl

/-! ## Hubs and tiles -/


@[simp] theorem hub_setHub_same (s : State) (h : HubId) (H : Hub) : hub (setHub s h H) h = H := by
  cases h <;> rfl

theorem hub_setHub (s : State) (h k : HubId) (H : Hub) :
    hub (setHub s h H) k = if k = h then H else hub s k := by
  cases h <;> cases k <;> rfl

@[simp] theorem hub_modHub_same (s : State) (h : HubId) (f : Hub → Hub) : hub (modHub s h f) h = f (hub s h) := by
  simp [modHub]

theorem hub_modHub (s : State) (h k : HubId) (f : Hub → Hub) :
    hub (modHub s h f) k = if k = h then f (hub s h) else hub s k := by
  simp [modHub, hub_setHub]


@[simp] theorem tile_setTile_same (s : State) (t : TileId) (T : Tile) : tile (setTile s t T) t = T := by
  cases t <;> rfl

theorem tile_setTile (s : State) (t k : TileId) (T : Tile) :
    tile (setTile s t T) k = if k = t then T else tile s k := by
  cases t <;> cases k <;> rfl

@[simp] theorem tile_modTile_same (s : State) (t : TileId) (f : Tile → Tile) : tile (modTile s t f) t = f (tile s t) := by
  simp [modTile]

theorem tile_modTile (s : State) (t k : TileId) (f : Tile → Tile) :
    tile (modTile s t f) k = if k = t then f (tile s t) else tile s k := by
  simp [modTile, tile_setTile]


/-! ## setLane -/

@[simp] theorem setLane_pending (s : State) (l : LaneId) (L : Lane) : (setLane s l L).pending = s.pending := rfl
@[simp] theorem setLane_free (s : State) (l : LaneId) (L : Lane) : (setLane s l L).free = s.free := rfl
@[simp] theorem setLane_mod (s : State) (l : LaneId) (L : Lane) : (setLane s l L).mod = s.mod := rfl
@[simp] theorem setLane_grp (s : State) (l : LaneId) (L : Lane) : (setLane s l L).grp = s.grp := rfl
@[simp] theorem setLane_hubs (s : State) (l : LaneId) (L : Lane) : (setLane s l L).hubs = s.hubs := rfl
@[simp] theorem setLane_tiles (s : State) (l : LaneId) (L : Lane) : (setLane s l L).tiles = s.tiles := rfl
@[simp] theorem hub_setLane' (s : State) (l : LaneId) (L : Lane) (k : HubId) : hub (setLane s l L) k = hub s k := by
  cases k <;> simp [hub]
@[simp] theorem tile_setLane' (s : State) (l : LaneId) (L : Lane) (k : TileId) : tile (setLane s l L) k = tile s k := by
  cases k <;> simp [tile]

/-! ## modLane -/

@[simp] theorem modLane_pending (s : State) (l : LaneId) (f : Lane → Lane) : (modLane s l f).pending = s.pending := rfl
@[simp] theorem modLane_free (s : State) (l : LaneId) (f : Lane → Lane) : (modLane s l f).free = s.free := rfl
@[simp] theorem modLane_mod (s : State) (l : LaneId) (f : Lane → Lane) : (modLane s l f).mod = s.mod := rfl
@[simp] theorem modLane_grp (s : State) (l : LaneId) (f : Lane → Lane) : (modLane s l f).grp = s.grp := rfl
@[simp] theorem modLane_hubs (s : State) (l : LaneId) (f : Lane → Lane) : (modLane s l f).hubs = s.hubs := rfl
@[simp] theorem modLane_tiles (s : State) (l : LaneId) (f : Lane → Lane) : (modLane s l f).tiles = s.tiles := rfl
@[simp] theorem hub_modLane' (s : State) (l : LaneId) (f : Lane → Lane) (k : HubId) : hub (modLane s l f) k = hub s k := by
  cases k <;> simp [hub]
@[simp] theorem tile_modLane' (s : State) (l : LaneId) (f : Lane → Lane) (k : TileId) : tile (modLane s l f) k = tile s k := by
  cases k <;> simp [tile]

/-! ## setHub -/

@[simp] theorem setHub_pending (s : State) (h : HubId) (H : Hub) : (setHub s h H).pending = s.pending := by cases h <;> rfl
@[simp] theorem setHub_free (s : State) (h : HubId) (H : Hub) : (setHub s h H).free = s.free := by cases h <;> rfl
@[simp] theorem setHub_mod (s : State) (h : HubId) (H : Hub) : (setHub s h H).mod = s.mod := by cases h <;> rfl
@[simp] theorem setHub_grp (s : State) (h : HubId) (H : Hub) : (setHub s h H).grp = s.grp := by cases h <;> rfl
@[simp] theorem setHub_lanes (s : State) (h : HubId) (H : Hub) : (setHub s h H).lanes = s.lanes := by cases h <;> rfl
@[simp] theorem setHub_tiles (s : State) (h : HubId) (H : Hub) : (setHub s h H).tiles = s.tiles := by cases h <;> rfl
@[simp] theorem lane_setHub (s : State) (h : HubId) (H : Hub) (k : LaneId) : lane (setHub s h H) k = lane s k := by
  simp [lane]
@[simp] theorem tile_setHub' (s : State) (h : HubId) (H : Hub) (k : TileId) : tile (setHub s h H) k = tile s k := by
  cases k <;> simp [tile]

/-! ## modHub -/

@[simp] theorem modHub_pending (s : State) (h : HubId) (f : Hub → Hub) : (modHub s h f).pending = s.pending := by cases h <;> rfl
@[simp] theorem modHub_free (s : State) (h : HubId) (f : Hub → Hub) : (modHub s h f).free = s.free := by cases h <;> rfl
@[simp] theorem modHub_mod (s : State) (h : HubId) (f : Hub → Hub) : (modHub s h f).mod = s.mod := by cases h <;> rfl
@[simp] theorem modHub_grp (s : State) (h : HubId) (f : Hub → Hub) : (modHub s h f).grp = s.grp := by cases h <;> rfl
@[simp] theorem modHub_lanes (s : State) (h : HubId) (f : Hub → Hub) : (modHub s h f).lanes = s.lanes := by cases h <;> rfl
@[simp] theorem modHub_tiles (s : State) (h : HubId) (f : Hub → Hub) : (modHub s h f).tiles = s.tiles := by cases h <;> rfl
@[simp] theorem lane_modHub (s : State) (h : HubId) (f : Hub → Hub) (k : LaneId) : lane (modHub s h f) k = lane s k := by
  simp [lane]
@[simp] theorem tile_modHub' (s : State) (h : HubId) (f : Hub → Hub) (k : TileId) : tile (modHub s h f) k = tile s k := by
  cases k <;> simp [tile]

/-! ## setTile -/

@[simp] theorem setTile_pending (s : State) (t : TileId) (T : Tile) : (setTile s t T).pending = s.pending := by cases t <;> rfl
@[simp] theorem setTile_free (s : State) (t : TileId) (T : Tile) : (setTile s t T).free = s.free := by cases t <;> rfl
@[simp] theorem setTile_mod (s : State) (t : TileId) (T : Tile) : (setTile s t T).mod = s.mod := by cases t <;> rfl
@[simp] theorem setTile_grp (s : State) (t : TileId) (T : Tile) : (setTile s t T).grp = s.grp := by cases t <;> rfl
@[simp] theorem setTile_lanes (s : State) (t : TileId) (T : Tile) : (setTile s t T).lanes = s.lanes := by cases t <;> rfl
@[simp] theorem setTile_hubs (s : State) (t : TileId) (T : Tile) : (setTile s t T).hubs = s.hubs := by cases t <;> rfl
@[simp] theorem lane_setTile (s : State) (t : TileId) (T : Tile) (k : LaneId) : lane (setTile s t T) k = lane s k := by
  simp [lane]
@[simp] theorem hub_setTile' (s : State) (t : TileId) (T : Tile) (k : HubId) : hub (setTile s t T) k = hub s k := by
  cases k <;> simp [hub]

/-! ## modTile -/

@[simp] theorem modTile_pending (s : State) (t : TileId) (f : Tile → Tile) : (modTile s t f).pending = s.pending := by cases t <;> rfl
@[simp] theorem modTile_free (s : State) (t : TileId) (f : Tile → Tile) : (modTile s t f).free = s.free := by cases t <;> rfl
@[simp] theorem modTile_mod (s : State) (t : TileId) (f : Tile → Tile) : (modTile s t f).mod = s.mod := by cases t <;> rfl
@[simp] theorem modTile_grp (s : State) (t : TileId) (f : Tile → Tile) : (modTile s t f).grp = s.grp := by cases t <;> rfl
@[simp] theorem modTile_lanes (s : State) (t : TileId) (f : Tile → Tile) : (modTile s t f).lanes = s.lanes := by cases t <;> rfl
@[simp] theorem modTile_hubs (s : State) (t : TileId) (f : Tile → Tile) : (modTile s t f).hubs = s.hubs := by cases t <;> rfl
@[simp] theorem lane_modTile (s : State) (t : TileId) (f : Tile → Tile) (k : LaneId) : lane (modTile s t f) k = lane s k := by
  simp [lane]
@[simp] theorem hub_modTile' (s : State) (t : TileId) (f : Tile → Tile) (k : HubId) : hub (modTile s t f) k = hub s k := by
  cases k <;> simp [hub]

/-! ## modGrp -/

@[simp] theorem modGrp_pending (s : State) (f : Group → Group) : (modGrp s f).pending = s.pending := rfl
@[simp] theorem modGrp_free (s : State) (f : Group → Group) : (modGrp s f).free = s.free := rfl
@[simp] theorem modGrp_mod (s : State) (f : Group → Group) : (modGrp s f).mod = s.mod := rfl
@[simp] theorem modGrp_lanes (s : State) (f : Group → Group) : (modGrp s f).lanes = s.lanes := rfl
@[simp] theorem modGrp_hubs (s : State) (f : Group → Group) : (modGrp s f).hubs = s.hubs := rfl
@[simp] theorem modGrp_tiles (s : State) (f : Group → Group) : (modGrp s f).tiles = s.tiles := rfl
@[simp] theorem lane_modGrp (s : State) (f : Group → Group) (k : LaneId) : lane (modGrp s f) k = lane s k := by
  simp [lane]
@[simp] theorem hub_modGrp' (s : State) (f : Group → Group) (k : HubId) : hub (modGrp s f) k = hub s k := by
  cases k <;> simp [hub]
@[simp] theorem tile_modGrp' (s : State) (f : Group → Group) (k : TileId) : tile (modGrp s f) k = tile s k := by
  cases k <;> simp [tile]

@[simp] theorem modGrp_grp (s : State) (f : Group → Group) : (modGrp s f).grp = f s.grp := rfl
@[simp] theorem setLane_lanes (s : State) (l : LaneId) (L : Lane) : (setLane s l L).lanes = quadSet s.lanes l L := rfl
@[simp] theorem modLane_lanes (s : State) (l : LaneId) (f : Lane → Lane) :
    (modLane s l f).lanes = quadSet s.lanes l (f (lane s l)) := rfl


/-! ## Folds -/

/-- A quantity that no update of a fold changes is what it was. -/
theorem foldl_const {α β γ : Type} (g : β → γ) (f : β → α → β) (h : ∀ b a, g (f b a) = g b) (xs : List α) (b : β) :
    g (xs.foldl f b) = g b := by
  induction xs generalizing b with
  | nil => rfl
  | cons x xs ih => simp only [List.foldl_cons, ih, h]

@[simp] theorem modLanes_pending (s : State) (ls : List LaneId) (f : LaneId → Lane → Lane) : (modLanes s ls f).pending = s.pending :=
  foldl_const State.pending (fun s l => modLane s l (f l)) (fun _ _ => rfl) ls s
@[simp] theorem modLanes_free (s : State) (ls : List LaneId) (f : LaneId → Lane → Lane) : (modLanes s ls f).free = s.free :=
  foldl_const State.free (fun s l => modLane s l (f l)) (fun _ _ => rfl) ls s
@[simp] theorem modLanes_mod (s : State) (ls : List LaneId) (f : LaneId → Lane → Lane) : (modLanes s ls f).mod = s.mod :=
  foldl_const State.mod (fun s l => modLane s l (f l)) (fun _ _ => rfl) ls s
@[simp] theorem modLanes_grp (s : State) (ls : List LaneId) (f : LaneId → Lane → Lane) : (modLanes s ls f).grp = s.grp :=
  foldl_const State.grp (fun s l => modLane s l (f l)) (fun _ _ => rfl) ls s
@[simp] theorem modLanes_hubs (s : State) (ls : List LaneId) (f : LaneId → Lane → Lane) : (modLanes s ls f).hubs = s.hubs :=
  foldl_const State.hubs (fun s l => modLane s l (f l)) (fun _ _ => rfl) ls s
@[simp] theorem modLanes_tiles (s : State) (ls : List LaneId) (f : LaneId → Lane → Lane) : (modLanes s ls f).tiles = s.tiles :=
  foldl_const State.tiles (fun s l => modLane s l (f l)) (fun _ _ => rfl) ls s
@[simp] theorem hub_modLanes (s : State) (ls : List LaneId) (f : LaneId → Lane → Lane) (k : HubId) :
    hub (modLanes s ls f) k = hub s k := by cases k <;> simp [hub]
@[simp] theorem tile_modLanes (s : State) (ls : List LaneId) (f : LaneId → Lane → Lane) (k : TileId) :
    tile (modLanes s ls f) k = tile s k := by cases k <;> simp [tile]

/-- A lane outside the list keeps its value. -/
theorem lane_modLanes_not_mem (s : State) (ls : List LaneId) (f : LaneId → Lane → Lane) {k : LaneId} (h : k ∉ ls) :
    lane (modLanes s ls f) k = lane s k := by
  induction ls generalizing s with
  | nil => rfl
  | cons l ls ih =>
    simp only [List.mem_cons, not_or] at h
    simp only [modLanes, List.foldl_cons] at ih ⊢
    rw [ih _ h.2, lane_modLane_ne _ _ h.1]

/-- A lane that the list names once is changed once. -/
theorem lane_modLanes_mem (s : State) (ls : List LaneId) (f : LaneId → Lane → Lane) {k : LaneId} (h : k ∈ ls)
    (hd : ls.Nodup) : lane (modLanes s ls f) k = f k (lane s k) := by
  induction ls generalizing s with
  | nil => cases h
  | cons l ls ih =>
    obtain ⟨hl, hls⟩ := List.nodup_cons.mp hd
    have e : modLanes s (l :: ls) f = modLanes (modLane s l (f l)) ls f := rfl
    rw [e]
    rcases List.mem_cons.mp h with rfl | h'
    · rw [lane_modLanes_not_mem _ _ _ hl, lane_modLane_same]
    · have : k ≠ l := fun e => hl (e ▸ h')
      rw [ih _ h' hls, lane_modLane_ne _ _ this]

/-- Every lane is changed once. -/
@[simp] theorem lane_modLanes_all (s : State) (f : LaneId → Lane → Lane) (k : LaneId) :
    lane (modLanes s allLanes f) k = f k (lane s k) :=
  lane_modLanes_mem s allLanes f (by cases k <;> decide) (by decide)

/-! ## Tables -/

theorem tblGet_tblSet {α : Type} (t : Tbl α) (n k : Nat) (x : α) :
    tblGet (tblSet t n x) k = if k = n then some x else tblGet t k := by
  induction t with
  | nil =>
    by_cases h : k = n
    · simp [tblSet, tblGet, h]
    · simp [tblSet, tblGet, h, Ne.symm h]
  | cons e t ih =>
    obtain ⟨m, v⟩ := e
    simp only [tblSet]
    split
    · by_cases h : k = n
      · simp [tblGet, h]
      · simp [tblGet, h, Ne.symm h]
    · split
      · rename_i h1 h2
        subst h2
        by_cases h : k = n
        · simp [tblGet, h]
        · simp [tblGet, h, Ne.symm h]
      · rename_i h1 h2
        simp only [tblGet, ih]
        by_cases h : k = n
        · subst h; simp [Ne.symm h2]
        · simp [h]

@[simp] theorem tblGetD_tblSet_same {α : Type} (t : Tbl α) (n : Nat) (x d : α) : tblGetD (tblSet t n x) n d = x := by
  simp [tblGetD, tblGet_tblSet]

theorem tblGetD_tblSet_ne {α : Type} (t : Tbl α) {n k : Nat} (x d : α) (h : k ≠ n) :
    tblGetD (tblSet t n x) k d = tblGetD t k d := by
  simp [tblGetD, tblGet_tblSet, h]

@[simp] theorem ctxRun_modCtx_same (L : Lane) (n : Nat) (f : CtxRun → CtxRun) :
    ctxRun (modCtx L n f) n = f (ctxRun L n) := by
  simp [modCtx, ctxRun]

theorem ctxRun_modCtx_ne (L : Lane) {n k : Nat} (f : CtxRun → CtxRun) (h : k ≠ n) :
    ctxRun (modCtx L n f) k = ctxRun L k := by
  simp [modCtx, ctxRun, tblGetD_tblSet_ne _ _ _ h]

/-- A reset module waits for no command and is held in reset. -/
@[simp] theorem reset_pending : State.reset.pending = [] := rfl
@[simp] theorem reset_pwrgd : State.reset.mod.pwrgd = false := rfl

end Sys2Proof.Machine
end

