-- ==== Sys2Proof/Laws/Fb.lean ====
section
/-! SUPPORT. What counting, the delay queue and the commit of an instruction change in a lane, and the registers of a
task. -/

namespace Sys2Proof.Machine

open Sys2Proof

/-! ## Registers -/

@[simp] theorem getX_zero (t : Task) : getX t 0 = 0 := rfl

theorem toNat_ne_of_ne {r q : Reg} (h : r ≠ q) : r.toNat ≠ q.toNat := fun e => h (BitVec.eq_of_toNat_eq e)

/-- A register read after a write (R138). -/
theorem getX_setX (t : Task) (r q : Reg) (v : Word) :
    getX (setX t r v) q = if q = r ∧ r ≠ 0 then v else getX t q := by
  unfold getX setX
  by_cases hr : r = 0#5
  · simp [hr]
  · by_cases hq : q = 0#5
    · have : ¬ (q = r) := fun e => hr (e ▸ hq)
      simp [hq]
      intro e; exact absurd e.symm hr
    · by_cases e : q = r
      · subst e
        have : q.toNat < 32 := q.isLt
        simp [hr, this]
      · have := toNat_ne_of_ne (Ne.symm e)
        simp [hr, hq, e, this]

@[simp] theorem getX_with_pc (t : Task) (p : Word) (r : Reg) : getX { t with pc := p } r = getX t r := rfl

@[simp] theorem setX_zero (t : Task) (v : Word) : setX t 0 v = t := rfl

/-- A register write changes the registers alone. -/
theorem setX_eq (t : Task) (r : Reg) (v : Word) : setX t r v = { t with x := (setX t r v).x } := by
  unfold setX; split <;> rfl

/-! ## Counting (R447-R455) -/

/-- A step of a counter changes the counters alone. -/
theorem laneCtrStep_eq (L : Lane) (n k : Nat) (m : Option Nat) :
    laneCtrStep L n k m = { L with ctrs := (laneCtrStep L n k m).ctrs } := rfl

/-- So do steps of some counters, each by a number of its own. -/
theorem laneSteps_eq (p : Lane → Nat → Bool) (k : Lane → Nat → Nat) (m : Option Nat) (ns : List Nat) (L : Lane) :
    ns.foldl (fun L n => if p L n then laneCtrStep L n (k L n) m else L) L =
      { L with ctrs := (ns.foldl (fun L n => if p L n then laneCtrStep L n (k L n) m else L) L).ctrs } := by
  induction ns generalizing L with
  | nil => rfl
  | cons n ns ih =>
    simp only [List.foldl_cons]
    rw [ih]
    split
    · rw [laneCtrStep_eq]
    · rfl

/-- Counting changes the counters alone. -/
theorem laneCount_eq (L : Lane) (m : Nat) (e : CtrEv) : laneCount L m e = { L with ctrs := (laneCount L m e).ctrs } := by
  unfold laneCount
  split
  · rfl
  · exact laneSteps_eq (fun L n => laneCtrCounts L n m e) (fun _ _ => e.n) (some m) _ L

/-- So does a raw signal of the lane. -/
theorem laneRaw_eq (src : Nat) (L : Lane) : laneRaw src L = { L with ctrs := (laneRaw src L).ctrs } := by
  unfold laneRaw
  split
  · rfl
  · exact laneSteps_eq (fun L n => laneRawCounts L n src)
      (fun L n => rawEdges ((L.ctrs.ctr.toList[n]?.getD {}).sel.toNat / 0x10000 % 4) 1 1) none _ L

/-- So does counting several events. -/
theorem laneCounts_eq (es : List CtrEv) (m : Nat) (L : Lane) :
    es.foldl (fun L v => laneCount L m v) L =
      { L with ctrs := (es.foldl (fun L v => laneCount L m v) L).ctrs } := by
  induction es generalizing L with
  | nil => rfl
  | cons e es ih =>
    simp only [List.foldl_cons]
    rw [ih]
    rw [laneCount_eq L m e]

/-! ## The delay queue (R35-R39) -/

/-- What an entry has K do is K's own: its task and its halt. -/
theorem kAct_eq (L : Lane) (a : DqAct) : kAct L a = { L with kCur := (kAct L a).kCur, kHalted := (kAct L a).kHalted } := by
  cases a <;> rfl

/-- K's commit of an entry changes its task, its halt, its signature and the counters alone. -/
theorem kCommit_eq (L : Lane) (e : DqEntry) :
    kCommit L e = { L with kCur := (kCommit L e).kCur, kHalted := (kCommit L e).kHalted, sigK := (kCommit L e).sigK,
                           ctrs := (kCommit L e).ctrs } := by
  unfold kCommit
  rw [laneCounts_eq]
  rw [kAct_eq]

/-- K changes its task, its halt, its signature, the counters and the queue alone. -/
theorem kRun_eq (keep : Nat) (q : List DqEntry) (L : Lane) :
    kRun L keep q =
      { L with kCur := (kRun L keep q).kCur, kHalted := (kRun L keep q).kHalted, sigK := (kRun L keep q).sigK,
               ctrs := (kRun L keep q).ctrs, dq := (kRun L keep q).dq } := by
  induction q generalizing L with
  | nil => rfl
  | cons e es ih =>
    unfold kRun
    split
    · rw [ih]
      rw [kCommit_eq]
    · rfl

/-- In a drain K takes everything that waits. -/
theorem kRun_zero_dq (q : List DqEntry) (L : Lane) : (kRun L 0 q).dq = [] := by
  induction q generalizing L with
  | nil => rfl
  | cons e es ih =>
    unfold kRun
    simp only [Nat.zero_le, if_true]
    exact ih _

/-- K's signature after an entry. -/
theorem kCommit_sigK (L : Lane) (e : DqEntry) : (kCommit L e).sigK = foldItems L.sigK e.items := by
  unfold kCommit
  rw [laneCounts_eq]

/-- K's signature once it has taken all that waits: every entry's items folded in order. -/
theorem kRun_zero_sigK (q : List DqEntry) (L : Lane) :
    (kRun L 0 q).sigK = q.foldl (fun x e => foldItems x e.items) L.sigK := by
  induction q generalizing L with
  | nil => rfl
  | cons e es ih =>
    unfold kRun
    simp only [Nat.zero_le, if_true, List.foldl_cons]
    rw [ih, kCommit_sigK]

/-- One entry of K's run. -/
theorem kRun_cons (L : Lane) (keep : Nat) (e : DqEntry) (es : List DqEntry) :
    kRun L keep (e :: es) = if keep ≤ dqOps es then kRun (kCommit L e) keep es else { L with dq := e :: es } := rfl

/-- However far K has come, it ends with the same signature. -/
theorem kRun_drain_sigK (keep : Nat) (q : List DqEntry) (L : Lane) :
    (kRun (kRun L keep q) 0 (kRun L keep q).dq).sigK = (kRun L 0 q).sigK := by
  induction q generalizing L with
  | nil => rfl
  | cons e es ih =>
    rw [kRun_cons L keep]
    split
    · rw [ih, kRun_cons L 0, if_pos (Nat.zero_le _)]
    · rw [kRun_zero_sigK, kRun_zero_sigK]

/-- What M commits for both cores to sign changes the signatures, the queue, the counters and K alone. -/
theorem enqueue_eq (L : Lane) (e : DqEntry) :
    enqueue L e =
      { L with sigM := foldItems L.sigM e.items, kCur := (enqueue L e).kCur, kHalted := (enqueue L e).kHalted,
               sigK := (enqueue L e).sigK, ctrs := (enqueue L e).ctrs, dq := (enqueue L e).dq } := by
  unfold enqueue
  rw [kRun_eq]

/-! ## The commit (R35-R41, R142) -/

/-- What the commit of an instruction that goes on writes, and that it writes nothing else. -/
theorem fbCommit_eq (L : Lane) (t u : Task) (d : FbDone) (h : d.task = some u) :
    fbCommit L t d =
      { L with
        cur := some u, dbg := { L.dbg with stepArm := false }, winOps := L.winOps + d.weight,
        opsCount := L.opsCount + d.weight, sigM := foldItems L.sigM d.items, scrub := markStores L.scrub d.stores,
        outBuf := d.stores.reverse ++ L.outBuf, kCur := (fbCommit L t d).kCur, kHalted := (fbCommit L t d).kHalted,
        sigK := (fbCommit L t d).sigK, ctrs := (fbCommit L t d).ctrs, dq := (fbCommit L t d).dq } := by
  unfold fbCommit
  simp only [h]
  rw [enqueue_eq]
  rw [laneCounts_eq]

/-- What the commit of an instruction that ends the run writes before the next task is chosen. -/
theorem fbTask?_some (s : State) (l : LaneId) (t : Task) (on : s.mod.pwrgd = true) (fr : (lane s l).fenced = false)
    (nw : (lane s l).wait = none) (go : (lane s l).dbg.halted = false ∨ (lane s l).dbg.stepArm = true)
    (cur : (lane s l).cur = some t) : fbTask? s l = some t := by
  unfold fbTask?
  rcases go with g | g <;> simp [on, fr, nw, g, cur]

/-- A commit outside a join, or of an instruction that stores nothing. -/
theorem commitOrWait_noStage (s : State) (l : LaneId) (t : Task) (d : FbDone)
    (h : ∀ j, s.grp.join = some j → toStage j l d.stores = []) :
    commitOrWait s l t d = setLane s l (fbCommit (lane s l) t d) := by
  unfold commitOrWait
  split
  · rfl
  · rename_i j hj
    simp [h j hj]

/-- An instruction that stores nothing marks nothing. -/
@[simp] theorem markStores_nil (c : ScrubLane) : markStores c [] = c := by
  unfold markStores
  split <;> simp

/-- Marks of a scrub are all that a store changes in its lane part. -/
theorem markStores_eq (c : ScrubLane) (st : List (Nat × Byte)) :
    markStores c st = { c with marked := (markStores c st).marked } := by
  unfold markStores
  split <;> rfl

theorem toStage_nil (j : Join) (l : LaneId) : toStage j l [] = [] := rfl

end Sys2Proof.Machine
end

