-- ==== Sys2Proof/Laws/Reply.lean ====
section
/-! SUPPORT. What the handling of a host command changes: counting and interrupts in a hub, fetch, tags, replies, stamping;
and a command as its row's checks leave it. -/

namespace Sys2Proof.Machine

open Sys2Proof

/-! ## The parts of a hub that a reply touches -/

/-- The second hub is the first but for what a reply touches. -/
def ReplyPart (H K : Hub) : Prop :=
  K = { H with cmdCons := K.cmdCons, rpl := K.rpl, ctrs := K.ctrs, ctrOwed := K.ctrOwed, shadowOut := K.shadowOut,
               vecs := K.vecs, pools := K.pools, gated := K.gated, due := K.due }

theorem ReplyPart.trans {H K M : Hub} (a : ReplyPart H K) (b : ReplyPart K M) : ReplyPart H M := by
  unfold ReplyPart at *; rw [b, a]

/-- A step of a hub's counter changes the counters and the samples owed. -/
theorem hubCtrStep_eq (H : Hub) (n k : Nat) :
    hubCtrStep H n k = { H with ctrs := (hubCtrStep H n k).ctrs, ctrOwed := (hubCtrStep H n k).ctrOwed } := rfl

/-- So do steps of some counters, each by a number of its own. -/
theorem hubSteps_eq (p : Hub → Nat → Bool) (k : Hub → Nat → Nat) (ns : List Nat) (H : Hub) :
    ns.foldl (fun H n => if p H n then hubCtrStep H n (k H n) else H) H =
      { H with ctrs := (ns.foldl (fun H n => if p H n then hubCtrStep H n (k H n) else H) H).ctrs,
               ctrOwed := (ns.foldl (fun H n => if p H n then hubCtrStep H n (k H n) else H) H).ctrOwed } := by
  induction ns generalizing H with
  | nil => rfl
  | cons n ns ih =>
    simp only [List.foldl_cons]
    rw [ih]
    split
    · rw [hubCtrStep_eq]
    · rfl

/-- Counting in a hub changes the counters and the samples owed. -/
theorem hubCount_eq (H : Hub) (cls k : Nat) (q : Option Nat) :
    hubCount H cls k q = { H with ctrs := (hubCount H cls k q).ctrs, ctrOwed := (hubCount H cls k q).ctrOwed } :=
  hubSteps_eq (fun H n => hubCtrCounts H n cls q) (fun _ _ => k) _ H

/-- So does counting an edge of a raw signal. -/
theorem hubRaw_eq (src : Nat) (old new : Bool) (H : Hub) :
    hubRaw src old new H = { H with ctrs := (hubRaw src old new H).ctrs, ctrOwed := (hubRaw src old new H).ctrOwed } := by
  unfold hubRaw
  split
  · rfl
  · exact hubSteps_eq (fun H n => hubRawCounts H n src)
      (fun H n => rawEdges ((H.ctrs.toList[n]?.getD {}).sel.toNat / 0x400 % 4) new.toNat old.toNat) _ H

/-- The gate of a block changes what is gated and the counters. -/
theorem setGate_eq (b : HubBlock) (g : Bool) (H : Hub) :
    setGate b g H = { H with gated := (setGate b g H).gated, ctrs := (setGate b g H).ctrs, ctrOwed := (setGate b g H).ctrOwed } := by
  unfold setGate
  dsimp only
  split
  · rw [hubRaw_eq]
  · rfl

/-- Raising a vector changes the vectors. -/
theorem raiseVec_eq (H : Hub) (v : Nat) (now : Bool) : raiseVec H v now = { H with vecs := (raiseVec H v now).vecs } := by
  unfold raiseVec; split <;> rfl

theorem hubCount_part (H : Hub) (c k : Nat) (q : Option Nat) : ReplyPart H (hubCount H c k q) := by unfold ReplyPart; rw [hubCount_eq]
theorem setGate_part (b : HubBlock) (g : Bool) (H : Hub) : ReplyPart H (setGate b g H) := by unfold ReplyPart; rw [setGate_eq]
theorem raiseVec_part (H : Hub) (v : Nat) (n : Bool) : ReplyPart H (raiseVec H v n) := by unfold ReplyPart; rw [raiseVec_eq]
@[simp] theorem hubCount_cmdCons (H : Hub) (c k : Nat) (q : Option Nat) : (hubCount H c k q).cmdCons = H.cmdCons := by rw [hubCount_eq]
@[simp] theorem hubCount_rpl (H : Hub) (c k : Nat) (q : Option Nat) : (hubCount H c k q).rpl = H.rpl := by rw [hubCount_eq]
@[simp] theorem setGate_cmdCons (b : HubBlock) (g : Bool) (H : Hub) : (setGate b g H).cmdCons = H.cmdCons := by rw [setGate_eq]
@[simp] theorem setGate_rpl (b : HubBlock) (g : Bool) (H : Hub) : (setGate b g H).rpl = H.rpl := by rw [setGate_eq]
@[simp] theorem raiseVec_cmdCons (H : Hub) (v : Nat) (n : Bool) : (raiseVec H v n).cmdCons = H.cmdCons := by rw [raiseVec_eq]
@[simp] theorem raiseVec_rpl (H : Hub) (v : Nat) (n : Bool) : (raiseVec H v n).rpl = H.rpl := by rw [raiseVec_eq]

/-- A step within what a reply touches that leaves both rings' positions. -/
structure PoolPart (H K : Hub) : Prop where
  part : ReplyPart H K
  cons : K.cmdCons = H.cmdCons
  rpl  : K.rpl = H.rpl

theorem PoolPart.refl (H : Hub) : PoolPart H H := ⟨rfl, rfl, rfl⟩

theorem PoolPart.trans {H K M : Hub} (a : PoolPart H K) (b : PoolPart K M) : PoolPart H M :=
  ⟨a.part.trans b.part, b.cons.trans a.cons, b.rpl.trans a.rpl⟩

theorem hubCount_pool (H : Hub) (c k : Nat) (q : Option Nat) : PoolPart H (hubCount H c k q) :=
  ⟨hubCount_part .., hubCount_cmdCons .., hubCount_rpl ..⟩

/-- A change of a class's pool. -/
theorem modPool_pool (H : Hub) (c : BufClass) (f : Pool → Pool) : PoolPart H (modPool H c f) :=
  (PoolPart.mk (setGate_part ..) (setGate_cmdCons ..) (setGate_rpl ..)).trans ⟨rfl, rfl, rfl⟩

/-- Write bursts. -/
theorem writeBursts_pool (c : BufClass) (bs : List (Nat × Nat)) (H : Hub) : PoolPart H (writeBursts c bs H) := by
  unfold writeBursts; split
  · exact .refl H
  · exact (hubCount_pool ..).trans (modPool_pool ..)

/-- What is written to a ring. -/
theorem ringWrote_pool (c : BufClass) (o n : Ring) (H : Hub) : PoolPart H (ringWrote c o n H) := writeBursts_pool ..

/-- A read that has ended. -/
theorem readDone_pool (c : BufClass) (bs : List (Nat × Nat)) (H : Hub) : PoolPart H (readDone c bs H) :=
  (hubCount_pool ..).trans (modPool_pool ..)

/-- The shadow block written. -/
theorem writeShadow_pool (H : Hub) : PoolPart H (writeShadow H) := by
  unfold writeShadow; split
  · exact .refl H
  · have a : PoolPart H { H with shadowOut := H.rpl.prod :: H.sev.prod :: ((H.evch.take 14).map fun e => e.2.prod) } := ⟨rfl, rfl, rfl⟩
    dsimp only; split
    · exact a.trans (hubCount_pool ..)
    · exact (a.trans (hubCount_pool ..)).trans (modPool_pool ..)

/-! ## States that differ in a reply -/

/-- A state with a hub and its tags replaced. -/
def withReply (b : State) (h : HubId) (H : Hub) (ts : List TagRec) : State :=
  setHub (modGrp b fun g => setTags g h ts) h H

theorem onlyReply_withReply (hd : Hdr) (b : State) (H : Hub) (ts : List TagRec) (hp : ReplyPart (hub b hd.hub) H) :
    OnlyReply hd b (withReply b hd.hub H ts) := by
  unfold OnlyReply
  unfold ReplyPart at hp
  cases e : hd.hub <;> rw [e] at hp <;> exact ⟨rfl, rfl, rfl, hp⟩

theorem onlyReply_iff (hd : Hdr) (b t : State) :
    OnlyReply hd b t ↔ ReplyPart (hub b hd.hub) (hub t hd.hub) ∧ t = withReply b hd.hub (hub t hd.hub) (tagsOf t.grp hd.hub) := by
  constructor
  · intro ⟨h1, h2, h3, h4⟩
    refine ⟨h4, ?_⟩
    cases e : hd.hub <;> rw [e] at h2 h3 <;> refine h1.trans ?_
    · have h2 : t.grp.tags1 = b.grp.tags1 := h2
      have h3 : t.hubs = ⟨t.hubs.a, b.hubs.b⟩ := by rw [← show t.hubs.b = b.hubs.b from h3]
      exact (congrArg (fun x => ({ b with hubs := x, grp := { b.grp with tags0 := t.grp.tags0, tags1 := t.grp.tags1 } } : State)) h3).trans
        (congrArg (fun y => ({ b with hubs := ⟨t.hubs.a, b.hubs.b⟩, grp := { b.grp with tags0 := t.grp.tags0, tags1 := y } } : State)) h2)
    · have h2 : t.grp.tags0 = b.grp.tags0 := h2
      have h3 : t.hubs = ⟨b.hubs.a, t.hubs.b⟩ := by rw [← show t.hubs.a = b.hubs.a from h3]
      exact (congrArg (fun x => ({ b with hubs := x, grp := { b.grp with tags0 := t.grp.tags0, tags1 := t.grp.tags1 } } : State)) h3).trans
        (congrArg (fun y => ({ b with hubs := ⟨b.hubs.a, t.hubs.b⟩, grp := { b.grp with tags0 := y, tags1 := t.grp.tags1 } } : State)) h2)
  · intro ⟨h1, h2⟩
    rw [h2]
    exact onlyReply_withReply hd b _ _ h1

theorem OnlyReply.refl (hd : Hdr) (s : State) : OnlyReply hd s s := ⟨rfl, rfl, rfl, rfl⟩

theorem OnlyReply.trans {hd : Hdr} {b t u : State} (x : OnlyReply hd b t) (y : OnlyReply hd t u) : OnlyReply hd b u := by
  obtain ⟨x1, x2, x3, x4⟩ := x
  obtain ⟨y1, y2, y3, y4⟩ := y
  refine ⟨?_, y2.trans x2, y3.trans x3, ReplyPart.trans x4 y4⟩
  rw [y1]; rw [x1]

@[simp] theorem hub_withReply (b : State) (h : HubId) (H : Hub) (ts : List TagRec) : hub (withReply b h H ts) h = H := by
  simp [withReply]
@[simp] theorem tagsOf_setTags (g : Group) (h : HubId) (ts : List TagRec) : tagsOf (setTags g h ts) h = ts := by
  cases h <;> rfl
@[simp] theorem tagsOf_withReply (b : State) (h : HubId) (H : Hub) (ts : List TagRec) :
    tagsOf (withReply b h H ts).grp h = ts := by simp [withReply]

/-- The fields a reply leaves. -/
theorem OnlyReply.fields {hd : Hdr} {b t : State} (x : OnlyReply hd b t) :
    t.mod = b.mod ∧ t.lanes = b.lanes ∧ t.tiles = b.tiles ∧ t.free = b.free ∧ t.pending = b.pending ∧
      t.grp = { b.grp with tags0 := t.grp.tags0, tags1 := t.grp.tags1 } := by
  obtain ⟨x1, _, _, _⟩ := x
  rw [x1]; exact ⟨rfl, rfl, rfl, rfl, rfl, rfl⟩

/-- What looks at no hub and no tag reads the same. -/
theorem OnlyReply.read {hd : Hdr} {b t : State} {β : Type} (x : OnlyReply hd b t) (f : State → β)
    (hf : ∀ s hs a c, f { s with hubs := hs, grp := { s.grp with tags0 := a, tags1 := c } } = f s) : f t = f b := by
  rw [x.1]; exact hf _ _ _ _

/-- What looks at no part of a hub that a reply touches reads the same of every hub. -/
theorem OnlyReply.readHub {hd : Hdr} {b t : State} {β : Type} (x : OnlyReply hd b t) (f : Hub → β)
    (hf : ∀ H c r k o w v p g u, 
      f { H with cmdCons := c, rpl := r, ctrs := k, ctrOwed := o, shadowOut := w, vecs := v, pools := p, gated := g, due := u } = f H)
    (h : HubId) : f (hub t h) = f (hub b h) := by
  by_cases e : h = hd.hub
  · subst e; rw [x.2.2.2]; exact hf _ _ _ _ _ _ _ _ _ _
  · have e : h = peerHub hd.hub := by cases h <;> cases k : hd.hub <;> simp [k, peerHub] at e ⊢
    rw [e, x.2.2.1]

/-! ## Fetch, tags, replies -/

theorem fetchCmd_hub (s : State) (hd : Hdr) :
    PoolPart { ungate .firmware (hub s hd.hub) with
      cmdCons := (hub s hd.hub).cmdCons + BitVec.ofNat 32 (hdrUnits hd), due := false } (hub (fetchCmd s hd) hd.hub) := by
  simp only [fetchCmd, hub_modHub_same]
  exact (hubCount_pool ..).trans (readDone_pool ..)

theorem fetchCmd_eq (s : State) (hd : Hdr) : OnlyReply hd s (fetchCmd s hd) ∧ (fetchCmd s hd).grp = s.grp ∧
    (hub (fetchCmd s hd) hd.hub).cmdCons = (hub s hd.hub).cmdCons + BitVec.ofNat 32 (hdrUnits hd) ∧
    (hub (fetchCmd s hd) hd.hub).rpl = (hub s hd.hub).rpl := by
  have e : fetchCmd s hd = withReply s hd.hub (hub (fetchCmd s hd) hd.hub) (tagsOf s.grp hd.hub) := by
    cases h : hd.hub <;> simp [fetchCmd, withReply, modHub, modGrp, setTags, tagsOf, setHub, h, hub]
  have g := setGate_part .firmware false (hub s hd.hub)
  obtain ⟨q, c, r⟩ := fetchCmd_hub s hd
  have p : ReplyPart (hub s hd.hub) (hub (fetchCmd s hd) hd.hub) := by
    refine ReplyPart.trans (g.trans ?_) q
    rfl
  refine ⟨?_, by simp [fetchCmd], c, r.trans ?_⟩
  · rw [e]; exact onlyReply_withReply hd s _ _ p
  · exact setGate_rpl ..

theorem onlyReply_setTags (s : State) (hd : Hdr) (ts : List TagRec) :
    OnlyReply hd s (modGrp s fun g => setTags g hd.hub ts) := by
  have e : (modGrp s fun g => setTags g hd.hub ts) = withReply s hd.hub (hub s hd.hub) ts := by
    cases h : hd.hub <;> rfl
  rw [e]; exact onlyReply_withReply hd s _ _ rfl

theorem pushTag_only (s : State) (hd : Hdr) (r : TagRec) : OnlyReply hd s (pushTag s hd.hub r) := by
  unfold pushTag tagWindow
  generalize 1024 = n
  exact onlyReply_setTags s hd _

/-- A hub after an entry has been written to its reply ring. -/
abbrev replyHub (H : Hub) (e : RingEntry) : Hub :=
  ringWrote .command H.rpl (ringWrite H.rpl e)
    (raiseVec (writeShadow (hubCount { H with rpl := ringWrite H.rpl e } 1 1)) 0 (e.flags.testBit 1))

theorem replyHub_eq (H : Hub) (e : RingEntry) : ReplyPart H (replyHub H e) ∧
    (replyHub H e).cmdCons = H.cmdCons ∧ (replyHub H e).rpl = ringWrite H.rpl e := by
  have p1 : ReplyPart H { H with rpl := ringWrite H.rpl e } := rfl
  have q : PoolPart { H with rpl := ringWrite H.rpl e } (replyHub H e) :=
    (((hubCount_pool ..).trans (writeShadow_pool _)).trans ⟨raiseVec_part .., raiseVec_cmdCons .., raiseVec_rpl ..⟩).trans
      (ringWrote_pool ..)
  exact ⟨p1.trans q.part, q.cons, q.rpl⟩

theorem replyEntry_eq (s : State) (hd : Hdr) (e : RingEntry) : OnlyReply hd s (replyEntry s hd.hub e) ∧
    (replyEntry s hd.hub e).grp = s.grp ∧ (hub (replyEntry s hd.hub e) hd.hub).cmdCons = (hub s hd.hub).cmdCons ∧
    (hub (replyEntry s hd.hub e) hd.hub).rpl = ringWrite (hub s hd.hub).rpl e := by
  have x : replyEntry s hd.hub e = withReply s hd.hub (hub (replyEntry s hd.hub e) hd.hub) (tagsOf s.grp hd.hub) := by
    cases h : hd.hub <;> simp [replyEntry, withReply, modHub, modGrp, setTags, tagsOf, setHub, hub]
  have h : hub (replyEntry s hd.hub e) hd.hub = replyHub (hub s hd.hub) e := by
    simp only [replyEntry, hub_modHub_same]
  obtain ⟨p, c, r⟩ := replyHub_eq (hub s hd.hub) e
  rw [h]
  refine ⟨?_, by simp [replyEntry], c, r⟩
  rw [x, h]; exact onlyReply_withReply hd s _ _ p

theorem ringWrite_getLast (r : Ring) (e : RingEntry) : (ringWrite r e).out.getLast? = some e := by
  simp [ringWrite]

/-! ## A command on its way -/

/-- A command fetched and not ended: its units are free, its tag is the latest and open, and but for that the state is b. -/
structure Open (s : State) (hd : Hdr) (op : Nat) (b t : State) : Prop where
  only  : OnlyReply hd b t
  cons  : (hub t hd.hub).cmdCons = (hub s hd.hub).cmdCons + BitVec.ofNat 32 (hdrUnits hd)
  rpl   : (hub t hd.hub).rpl = (hub b hd.hub).rpl
  tag   : ∃ pre r, tagsOf t.grp hd.hub = pre ++ [r] ∧ r.tag = hd.tag ∧ r.opcode = op ∧ r.done = false ∧ r.replied = false

/-- The last 1,024 of some records and one more end with it. -/
theorem drop_window (ts : List TagRec) (r : TagRec) :
    tagWindow (ts ++ [r]) = ts.drop ((ts ++ [r]).length - 1024) ++ [r] := by
  unfold tagWindow
  rw [List.drop_append_of_le_length]
  simp only [List.length_append, List.length_singleton]; omega

theorem open_push (s : State) (hd : Hdr) (op : Nat) :
    Open s hd op s (pushTag (fetchCmd s hd) hd.hub { tag := hd.tag, opcode := op, handle := hd.handle }) := by
  obtain ⟨f1, f2, f3, f4⟩ := fetchCmd_eq s hd
  refine ⟨f1.trans (pushTag_only _ _ _), by simp [pushTag, f3], by simp [pushTag, f4], ?_⟩
  simp only [pushTag, modGrp_grp, tagsOf_setTags, f2]
  rw [drop_window, ← List.append_assoc]
  exact ⟨_, _, rfl, rfl, rfl, rfl, rfl⟩

/-- A change of the open record of a command. -/
theorem modTag_open {s : State} {hd : Hdr} {op : Nat} {b t : State} (o : Open s hd op b t) (f : TagRec → TagRec) :
    OnlyReply hd b (modTag t hd.hub hd.tag f) ∧ (modTag t hd.hub hd.tag f).hubs = t.hubs ∧
      ∃ pre r, tagsOf (modTag t hd.hub hd.tag f).grp hd.hub = pre ++ [f r] ∧ r.tag = hd.tag ∧ r.opcode = op ∧ r.done = false ∧
        r.replied = false := by
  obtain ⟨pre, r, h1, h2, h3, h4, h6⟩ := o.tag
  refine ⟨o.only.trans (onlyReply_setTags _ _ _), rfl, pre.map (fun x => if x.tag = hd.tag && !x.done then f x else x), r, ?_, h2, h3, h4, h6⟩
  simp only [modTag, modGrp_grp, tagsOf_setTags, h1, List.map_append, List.map_singleton, h2, h4]
  exact congr (congrArg _ rfl) (by simp)

theorem hub_of_hubs {s t : State} (h : s.hubs = t.hubs) (k : HubId) : hub s k = hub t k := by
  cases k <;> simp [hub, h]

/-- A final reply to a command on its way. -/
theorem open_answerH {s : State} {hd : Hdr} {op : Nat} {b t : State} (o : Open s hd op b t) (w : Word) (st : Nat)
    (data : List Byte) : Replied s hd op w st data (answerH t hd op w st data) ∧ OnlyReply hd b (answerH t hd op w st data) := by
  obtain ⟨m1, m2, pre, r, m3, m4, m5, m6, _⟩ := modTag_open o fun r =>
    { r with status := some st, replied := true, done := true, result := data, handle := w }
  obtain ⟨e1, e2, e3, e4⟩ := replyEntry_eq (modTag t hd.hub hd.tag fun r =>
    { r with status := some st, replied := true, done := true, result := data, handle := w }) hd
    { code := op, flags := hdrFlags hd, tag := hd.tag, handle := w, status := st, data := data }
  refine ⟨⟨?_, ?_, ?_⟩, m1.trans e1⟩
  · show (hub (replyEntry _ hd.hub _) hd.hub).rpl.out.getLast? = _
    rw [e4, ringWrite_getLast]; rfl
  · show (hub (replyEntry _ hd.hub _) hd.hub).cmdCons = _
    rw [e3, hub_of_hubs m2, o.cons]
  · show ∃ r, (tagsOf (replyEntry _ hd.hub _).grp hd.hub).getLast? = some r ∧ _
    rw [e2, m3]
    exact ⟨_, List.getLast?_concat .., m4, m5, rfl, rfl⟩

theorem open_answer {s : State} {hd : Hdr} {op : Nat} {b t : State} (o : Open s hd op b t) (st : Nat)
    (data : List Byte) : Replied s hd op hd.handle st data (answer t hd op st data) ∧ OnlyReply hd b (answer t hd op st data) :=
  open_answerH o hd.handle st data

/-- The ACCEPTED reply to a command on its way. -/
theorem open_accept {s : State} {hd : Hdr} {op : Nat} {b t : State} (o : Open s hd op b t) :
    Accepted s hd op (accept t hd op) ∧ OnlyReply hd b (accept t hd op) := by
  obtain ⟨m1, m2, pre, r, m3, m4, m5, m6, _⟩ := modTag_open o fun r => { r with replied := true, posted := true }
  obtain ⟨e1, e2, e3, e4⟩ := replyEntry_eq (modTag t hd.hub hd.tag fun r => { r with replied := true, posted := true }) hd
    { code := op, flags := hdrFlags hd, tag := hd.tag, handle := hd.handle, status := stAccepted, data := [] }
  refine ⟨⟨?_, ?_, ?_⟩, m1.trans e1⟩
  · show _ ∈ (hub (replyEntry _ hd.hub _) hd.hub).rpl.out
    rw [e4]; simp [ringWrite, replyOf, stAccepted]
  · show (hub (replyEntry _ hd.hub _) hd.hub).cmdCons = _
    rw [e3, hub_of_hubs m2, o.cons]
  · show ∃ r, (tagsOf (replyEntry _ hd.hub _).grp hd.hub).getLast? = some r ∧ _
    rw [e2, m3]
    exact ⟨_, List.getLast?_concat .., m4, m5, m6, rfl, rfl⟩

/-! ## The checks -/

theorem fetchable_iff (s : State) (hd : Hdr) (n k : Nat) (hp : s.mod.pwrgd = true) :
    fetchable s hd n k = true ↔ Fetched s hd n k := by
  simp only [fetchable, nextInRing, Bool.and_eq_true, Bool.or_eq_true, Bool.not_eq_true', decide_eq_true_eq, beq_iff_eq]
  constructor
  · intro ⟨⟨⟨⟨⟨⟨⟨a, b⟩, c⟩, d⟩, u⟩, e⟩, f⟩, g⟩
    exact ⟨hp, a, b, c, d, u, e, f, fun hf => g.resolve_left (by simp [hf])⟩
  · intro h
    refine ⟨⟨⟨⟨⟨⟨⟨h.serves, h.rings⟩, h.link⟩, h.avail⟩, h.turn⟩, h.room⟩, h.flight⟩, ?_⟩
    cases e : hd.fence
    · exact .inl rfl
    · exact .inr (h.fence e)

/-- A command that passes every check is carried out on the state with its units free and its tag registered. -/
theorem hostCmd_pass (i : Instr) (s : State) (c : CmdRule) (hd : Hdr) (lenOk : State → Bool) (sl : State → Option Nat) (f : State → State)
    (hf : Fetched s hd c.maxRep c.items) (hh : GoodHeader s hd) (hc : handleCheck s hd.hub c.ty hd.handle = none)
    (hl : lenOk s = true) (hs : sl s = none) (ha : c.allowed s.mod.op = true) :
    whenOn s (hostCmd i c hd lenOk sl f) =
      f (pushTag (fetchCmd s hd) hd.hub { tag := hd.tag, opcode := c.opcode, handle := hd.handle }) := by
  have r : refusal s c hd (lenOk s) (sl s) = none := by
    simp [refusal, hh.1, hh.2.1, hh.2.2.1, hh.2.2.2, hc, hl, hs, ha]
  have e := (fetchable_iff s hd c.maxRep c.items hf.on).mpr hf
  simp only [whenOn, hf.on, hostCmd, e, r, if_true]

/-- A fetched entry that is refused has its reply and no other effect. -/
theorem refuse_fetched (s : State) (hd : Hdr) (op st : Nat) :
    Replied s hd op hd.handle st [] (refuse (fetchCmd s hd) hd op st) ∧ OnlyReply hd s (refuse (fetchCmd s hd) hd op st) := by
  obtain ⟨f1, f2, f3, f4⟩ := fetchCmd_eq s hd
  unfold refuse
  generalize hu : pushTag (fetchCmd s hd) hd.hub _ = u
  have hug : OnlyReply hd s u := hu ▸ f1.trans (pushTag_only _ _ _)
  have huc : (hub u hd.hub).cmdCons = (hub s hd.hub).cmdCons + BitVec.ofNat 32 (hdrUnits hd) := by
    rw [← hu]; simp [pushTag, f3]
  have hut : (tagsOf u.grp hd.hub).getLast? = some
      { tag := hd.tag, opcode := op, handle := hd.handle, status := some st, replied := true, done := true } := by
    rw [← hu]; simp only [pushTag, modGrp_grp, tagsOf_setTags]; rw [drop_window, ← List.append_assoc, List.getLast?_concat]
  obtain ⟨e1, e2, e3, e4⟩ := replyEntry_eq u hd
    { code := op, flags := hdrFlags hd, tag := hd.tag, handle := hd.handle, status := st, data := [] }
  refine ⟨⟨?_, ?_, { tag := hd.tag, opcode := op, handle := hd.handle, status := some st, replied := true, done := true },
    ?_, rfl, rfl, rfl, rfl⟩, hug.trans e1⟩
  · rw [e4, ringWrite_getLast]; rfl
  · rw [e3, huc]
  · rw [e2, hut]

/-- A command that a check refuses has its reply and no other effect. -/
theorem hostCmd_refused (i : Instr) (s : State) (c : CmdRule) (hd : Hdr) (lenOk : State → Bool) (sl : State → Option Nat) (f : State → State)
    (st : Nat) (hf : Fetched s hd c.maxRep c.items) (hr : refusal s c hd (lenOk s) (sl s) = some st) :
    Replied s hd c.opcode hd.handle st [] (whenOn s (hostCmd i c hd lenOk sl f)) ∧
      OnlyReply hd s (whenOn s (hostCmd i c hd lenOk sl f)) := by
  have e := (fetchable_iff s hd c.maxRep c.items hf.on).mpr hf
  simp only [whenOn, hf.on, hostCmd, e, hr, if_true]
  exact refuse_fetched s hd c.opcode st

/-- An entry of an unlisted opcode that the hub fetches is refused by its header, else as BAD_OPCODE (R401, R402). -/
theorem unknownCmd_refused (s : State) (op : Nat) (hd : Hdr) (hf : Fetched s hd 0 1) :
    Replied s hd op hd.handle (if hd.version = 1 ∧ hd.flagRsv = 0 ∧ hd.status = 0 then 0x0010 else 0x0015) []
      (unknownCmd s (op, hd)) ∧ OnlyReply hd s (unknownCmd s (op, hd)) := by
  have e := (fetchable_iff s hd 0 1 hf.on).mpr hf
  have h := refuse_fetched s hd op (if hd.version ≠ 1 || hd.flagRsv ≠ 0 || hd.status ≠ 0 then stBadHeader else 0x0010)
  have q : (if hd.version ≠ 1 || hd.flagRsv ≠ 0 || hd.status ≠ 0 then stBadHeader else 0x0010) =
      if hd.version = 1 ∧ hd.flagRsv = 0 ∧ hd.status = 0 then 0x0010 else 0x0015 := by
    by_cases a : hd.version = 1 <;> by_cases b : hd.flagRsv = 0 <;> by_cases c : hd.status = 0 <;> simp [a, b, c, stBadHeader]
  have u : unknownCmd s (op, hd) = refuse (fetchCmd s hd) hd op
      (if hd.version ≠ 1 || hd.flagRsv ≠ 0 || hd.status ≠ 0 then stBadHeader else 0x0010) := by
    unfold unknownCmd
    simp only [e, Bool.not_true, Bool.false_eq_true, if_false]
  rw [u, ← q]
  exact h

/-- A command the hub does not fetch waits in its ring. -/
theorem hostCmd_unfetched (i : Instr) (s : State) (c : CmdRule) (hd : Hdr) (lenOk : State → Bool) (sl : State → Option Nat)
    (f : State → State) (hp : s.mod.pwrgd = true) (hf : ¬ Fetched s hd c.maxRep c.items) :
    whenOn s (hostCmd i c hd lenOk sl f) =
      waitInRing s { hd := hd, maxRep := c.maxRep, items := c.items, opcode := c.opcode, cmd := some i } := by
  have e : fetchable s hd c.maxRep c.items = false := by
    rw [← Bool.not_eq_true, fetchable_iff s hd c.maxRep c.items hp]; exact hf
  simp [whenOn, hp, hostCmd, e]

end Sys2Proof.Machine
end

