-- ==== Sys2Proof/Laws/Host.lean ====
section
/-! SUPPORT. Every host command that replies is its row's fetch and checks around a body of its own. -/

namespace Sys2Proof.Machine

open Sys2Proof

/-- What a row of R408 or R413 says of its command. -/
structure IsRow (r : HostRow) (i : Instr) (c : CmdRule) (lenOk : State → Bool) (sl : State → Option Nat)
    (f : State → State) : Prop where
  run   : ∀ s, exec i s = .next (whenOn s (hostCmd i c r.hd lenOk sl f))
  op    : c.opcode = r.op
  rep   : c.maxRep = r.maxRep
  items : c.items = r.items
  ty    : c.ty = r.ty
  len   : ∀ s, lenOk s = r.len s
  sealed : ∀ s, sl s = if r.unsealed = true ∧ isSealed s = true then some stSealed else none
  allow : ∀ o, c.allowed o = r.allowed o

theorem isRow_of (r : HostRow) (i : Instr) (h : hostRow i = some r) : ∃ c lenOk sl f, IsRow r i c lenOk sl f := by
  cases i <;> first
    | (simp only [hostRow, reduceCtorEq] at h; done)
    | (simp only [hostRow, Option.some.injEq] at h
       subst h
       refine ⟨_, _, _, _, ⟨fun s => rfl, rfl, rfl, rfl, rfl, fun s => rfl, fun s => ?_, fun o => by cases o <;> rfl⟩⟩
       first | rfl | simp [sealCheck])

/-- The state in which a command is carried out: its units free, its tag registered. -/
abbrev taken (s : State) (hd : Hdr) (op : Nat) : State :=
  pushTag (fetchCmd s hd) hd.hub { tag := hd.tag, opcode := op, handle := hd.handle }

/-- A command that passes its row's checks is its body on the state with its units free and its tag registered. -/
theorem passes_to {s : State} {i : Instr} {hd : Hdr} (h : Passes s i hd) (c : CmdRule) (lenOk : State → Bool)
    (sl : State → Option Nat) (f : State → State) (hr : ∀ r, hostRow i = some r → IsRow r i c lenOk sl f) :
    exec i s = .next (f (taken s hd c.opcode)) ∧ Open s hd c.opcode s (taken s hd c.opcode) := by
  obtain ⟨r, h1, h2, h3, h4, h5, h6, h7, h8⟩ := h
  obtain ⟨k1, k2, k3, k3', k4, k5, k6, k7⟩ := hr r h1
  subst h2
  refine ⟨?_, open_push s r.hd c.opcode⟩
  rw [k1, hostCmd_pass i s c r.hd lenOk sl f (k3' ▸ k3 ▸ h3) h4 (k4 ▸ h5) ((k5 s).trans h6) ?_ ((k7 _).trans h8)]
  rw [k6, if_neg]
  intro ⟨x, y⟩; rw [h7 x] at y; exact absurd y (by simp)

/-- A command whose body is one reply. -/
theorem answered_of {s : State} {i : Instr} {hd : Hdr} (h : Passes s i hd) (c : CmdRule) (lenOk : State → Bool)
    (sl : State → Option Nat) (f : State → State) (hr : ∀ r, hostRow i = some r → IsRow r i c lenOk sl f) (st : Nat)
    (data : List Byte) (hf : ∀ t, Open s hd c.opcode s t → f t = answer t hd c.opcode st data) :
    Completes i s fun t => Replied s hd c.opcode hd.handle st data t ∧ OnlyReply hd s t := by
  obtain ⟨e, o⟩ := passes_to h c lenOk sl f hr
  exact ⟨_, e, hf _ o ▸ open_answer o st data⟩

end Sys2Proof.Machine
end

