-- ==== Sys2Proof/Laws/Memory.lean ====
section
/-! SUPPORT. Byte memories: a read after a write, and the canonical form that every memory operation keeps. -/

namespace Sys2Proof.Machine

open Sys2Proof

/-! ## Reads after writes -/

theorem memGet_memPut_same (m : Mem) (a : Nat) (b : Byte) (h : memWf m = true) : memGet (memPut m a b) a = b := by
  induction m with
  | nil => by_cases hb : b = 0#8 <;> simp [memPut, memGet, hb]
  | cons c m ih =>
    obtain ⟨k, v⟩ := c
    have hr : memWf m = true := by
      cases m with
      | nil => rfl
      | cons d m => obtain ⟨k', v'⟩ := d; simp only [memWf, Bool.and_eq_true] at h; exact h.2
    have low : ∀ (m : Mem) (k a : Nat), memWf ((k, v) :: m) = true → a ≤ k → memGet m a = 0 := by
      intro m
      induction m with
      | nil => intro k a _ _; rfl
      | cons d m ih2 =>
        intro k a hw hak
        obtain ⟨k', v'⟩ := d
        simp only [memWf, Bool.and_eq_true, decide_eq_true_eq] at hw
        have hne : k' ≠ a := by omega
        simp only [memGet, hne, if_false]
        cases m with
        | nil => rfl
        | cons e m =>
          obtain ⟨k2, v2⟩ := e
          have h3 := hw.2
          simp only [memWf, Bool.and_eq_true, decide_eq_true_eq] at h3
          refine ih2 k a ?_ hak
          simp only [memWf, Bool.and_eq_true, decide_eq_true_eq]
          exact ⟨⟨hw.1.1, by omega⟩, h3.2⟩
    simp only [memPut]
    split
    · rename_i hlt
      by_cases hb : b = 0#8
      · have hne : k ≠ a := by omega
        simp [hb, memGet, hne, low m k a h (by omega)]
      · simp [hb, memGet]
    · split
      · rename_i h1 h2
        subst h2
        by_cases hb : b = 0#8
        · simp [hb, low m a a h (Nat.le_refl _)]
        · simp [hb, memGet]
      · rename_i h1 h2
        have hne : k ≠ a := fun e => h2 e.symm
        simp [memGet, hne, ih hr]

theorem memGet_memPut_ne (m : Mem) {a x : Nat} (b : Byte) (hx : x ≠ a) : memGet (memPut m a b) x = memGet m x := by
  induction m with
  | nil => by_cases hb : b = 0#8 <;> simp [memPut, memGet, hb, Ne.symm hx]
  | cons c m ih =>
    obtain ⟨k, v⟩ := c
    simp only [memPut]
    split
    · by_cases hb : b = 0#8 <;> simp [hb, memGet, Ne.symm hx]
    · split
      · rename_i h1 h2
        subst h2
        by_cases hb : b = 0#8 <;> simp [hb, memGet, Ne.symm hx]
      · simp [memGet, ih]

/-! ## The canonical form -/

/-- The canonical form as a statement about the list. -/
theorem memWf_iff (m : Mem) : memWf m = true ↔ m.Pairwise (fun x y => x.1 < y.1) ∧ ∀ c ∈ m, c.2 ≠ 0 := by
  induction m with
  | nil => simp [memWf]
  | cons c m ih =>
    obtain ⟨k, v⟩ := c
    cases m with
    | nil => simp [memWf]
    | cons d m =>
      obtain ⟨k', v'⟩ := d
      simp only [memWf, Bool.and_eq_true, decide_eq_true_eq, ih]
      simp only [List.pairwise_cons, List.mem_cons, bne_iff_ne, ne_eq, forall_eq_or_imp]
      constructor
      · rintro ⟨⟨hv, hk⟩, ⟨hp, hq⟩, hz⟩
        exact ⟨⟨⟨hk, fun x hx => Nat.lt_trans hk (hp x hx)⟩, hp, hq⟩, hv, hz⟩
      · rintro ⟨⟨⟨hk, _⟩, hp, hq⟩, hv, hz⟩
        exact ⟨⟨hv, hk⟩, ⟨hp, hq⟩, hz⟩

theorem memPut_keys (m : Mem) (a : Nat) (b : Byte) : ∀ c ∈ memPut m a b, c.1 = a ∨ c ∈ m := by
  induction m with
  | nil => intro c hc; by_cases hb : b = 0#8 <;> simp_all [memPut]
  | cons d m ih =>
    obtain ⟨k, v⟩ := d
    intro c hc
    simp only [memPut] at hc
    split at hc
    · by_cases hb : b = 0#8 <;> simp_all
      rcases hc with rfl | h <;> simp_all
    · split at hc
      · by_cases hb : b = 0#8 <;> simp_all
        rcases hc with rfl | h <;> simp_all
      · rcases List.mem_cons.mp hc with rfl | h
        · exact Or.inr (List.mem_cons_self ..)
        · rcases ih c h with h | h
          · exact Or.inl h
          · exact Or.inr (List.mem_cons_of_mem _ h)

/-- A byte write keeps the canonical form. -/
theorem memWf_memPut (m : Mem) (a : Nat) (b : Byte) (h : memWf m = true) : memWf (memPut m a b) = true := by
  rw [memWf_iff] at h ⊢
  induction m with
  | nil => by_cases hb : b = 0#8 <;> simp [memPut, hb]
  | cons d m ih =>
    obtain ⟨k, v⟩ := d
    obtain ⟨hp, hz⟩ := h
    rw [List.pairwise_cons] at hp
    have hz' : ∀ c ∈ m, c.2 ≠ 0 := fun c hc => hz c (List.mem_cons_of_mem _ hc)
    have hv : v ≠ 0 := hz (k, v) (List.mem_cons_self ..)
    simp only [memPut]
    split
    · rename_i hlt
      by_cases hb : b = 0#8
      · simp only [hb, BitVec.ofNat_eq_ofNat, if_true]; exact ⟨List.pairwise_cons.mpr hp, hz⟩
      · simp only [BitVec.ofNat_eq_ofNat, hb, if_false]
        refine ⟨?_, ?_⟩
        · rw [List.pairwise_cons, List.pairwise_cons]
          refine ⟨?_, hp⟩
          intro c hc
          rcases List.mem_cons.mp hc with rfl | h
          · exact hlt
          · exact Nat.lt_trans hlt (hp.1 c h)
        · intro c hc
          rcases List.mem_cons.mp hc with rfl | h
          · exact hb
          · exact hz c h
    · split
      · rename_i h1 h2
        subst h2
        by_cases hb : b = 0#8
        · simp only [hb, BitVec.ofNat_eq_ofNat, if_true]; exact ⟨hp.2, hz'⟩
        · simp only [BitVec.ofNat_eq_ofNat, hb, if_false]
          refine ⟨List.pairwise_cons.mpr ⟨hp.1, hp.2⟩, ?_⟩
          intro c hc
          rcases List.mem_cons.mp hc with rfl | h
          · exact hb
          · exact hz' c h
      · rename_i h1 h2
        obtain ⟨ip, iz⟩ := ih ⟨hp.2, hz'⟩
        refine ⟨?_, ?_⟩
        · rw [List.pairwise_cons]
          refine ⟨?_, ip⟩
          intro c hc
          rcases memPut_keys m a b c hc with e | hm
          · rw [e]; show k < a; omega
          · exact hp.1 c hm
        · intro c hc
          rcases List.mem_cons.mp hc with rfl | h
          · exact hv
          · exact iz c h

/-- So does a write of several bytes, and of a word. -/
theorem memWf_memPutBytes (bs : List Byte) (m : Mem) (a : Nat) (h : memWf m = true) :
    memWf (memPutBytes m a bs) = true := by
  induction bs generalizing m a with
  | nil => exact h
  | cons b bs ih => exact ih _ _ (memWf_memPut _ _ _ h)

theorem memWf_memPutWord (m : Mem) (a : Nat) (w : Word) (h : memWf m = true) : memWf (memPutWord m a w) = true :=
  memWf_memPutBytes _ _ _ h

/-- A part of a memory is canonical. -/
theorem memWf_filter (m : Mem) (p : Host.Cell → Bool) (h : memWf m = true) : memWf (m.filter p) = true := by
  rw [memWf_iff] at h ⊢
  exact ⟨h.1.filter p, fun c hc => h.2 c (List.mem_filter.mp hc).1⟩

theorem memWf_memRange (m : Mem) (lo hi : Nat) (h : memWf m = true) : memWf (memRange m lo hi) = true :=
  memWf_filter m _ h

/-- Two canonical memories, the first wholly below the second, join into one. -/
theorem memWf_append (m n : Mem) (hm : memWf m = true) (hn : memWf n = true)
    (hlt : ∀ c ∈ m, ∀ d ∈ n, c.1 < d.1) : memWf (m ++ n) = true := by
  rw [memWf_iff] at hm hn ⊢
  refine ⟨List.pairwise_append.mpr ⟨hm.1, hn.1, hlt⟩, ?_⟩
  intro c hc
  rcases List.mem_append.mp hc with h | h
  · exact hm.2 c h
  · exact hn.2 c h

/-- A copy of a range between canonical memories keeps the form. -/
theorem memWf_memCopy (dst src : Mem) (lo hi : Nat) (hl : lo ≤ hi) (hd : memWf dst = true) (hs : memWf src = true) :
    memWf (memCopy dst src lo hi) = true := by
  refine memWf_append _ _ (memWf_append _ _ (memWf_filter _ _ hd) (memWf_memRange _ _ _ hs) ?_) (memWf_filter _ _ hd) ?_
  · intro c hc d hdm
    simp only [memRange, List.mem_filter, decide_eq_true_eq, Bool.and_eq_true] at hc hdm
    exact Nat.lt_of_lt_of_le hc.2 hdm.2.1
  · intro c hc d hdm
    simp only [List.mem_append, memRange, List.mem_filter, decide_eq_true_eq, Bool.and_eq_true] at hc hdm
    rcases hc with h | h
    · omega
    · omega

/-- Entries of the process image are written in the canonical form (R288). -/
theorem memWf_putEnt (m : Mem) (p : Nat) (e : PointEnt) (h : memWf m = true) : memWf (putEnt m p e) = true :=
  memWf_memPutWord _ _ _ h

theorem memWf_modEnt (m : Mem) (p : Nat) (f : PointEnt → PointEnt) (h : memWf m = true) :
    memWf (modEnt m p f) = true := memWf_putEnt _ _ _ h

theorem memWf_resetPoints (ps : List PointRef) (m : Mem) (h : memWf m = true) : memWf (resetPoints m ps) = true := by
  induction ps generalizing m with
  | nil => exact h
  | cons p ps ih => exact ih _ (memWf_putEnt _ _ _ h)

/-- The stores of the outbound buffer reach a canonical memory in the canonical form. -/
theorem memWf_foldr_memPut (st : List (Nat × Byte)) (m : Mem) (h : memWf m = true) :
    memWf (st.foldr (fun x m => memPut m x.1 x.2) m) = true := by
  induction st with
  | nil => exact h
  | cons x st ih => exact memWf_memPut _ _ _ ih

/-- The memories of a module in reset are canonical. -/
theorem reset_memWf (l : LaneId) : memWf (lane State.reset l).mem = true := by cases l <;> rfl

end Sys2Proof.Machine
end

