-- ==== Sys2Proof/Laws/Parts.lean ====
section
/-! SUPPORT. The parts of a hub, a tile and the group after one of them is replaced: ports, channels, cuffs, seat drives,
seats and buffer pools. -/

namespace Sys2Proof.Machine

open Sys2Proof

/-! ## Ports -/

@[simp] theorem port_setPort_same (s : State) (p : PortId) (P : Port) : port (setPort s p P) p = P := by
  cases p <;> simp [port, setPort, portHub, portUpper]

/-- Another port keeps its state. -/
theorem port_setPort_ne (s : State) {p q : PortId} (P : Port) (h : q ≠ p) : port (setPort s p P) q = port s q := by
  cases p <;> cases q <;> first | exact absurd rfl h | simp [port, setPort, portHub, portUpper, hub_modHub]

@[simp] theorem port_modPort_same (s : State) (p : PortId) (f : Port → Port) : port (modPort s p f) p = f (port s p) := by
  simp [modPort]

theorem port_modPort_ne (s : State) {p q : PortId} (f : Port → Port) (h : q ≠ p) :
    port (modPort s p f) q = port s q := port_setPort_ne s _ h

@[simp] theorem setPort_pending (s : State) (p : PortId) (P : Port) : (setPort s p P).pending = s.pending := by simp [setPort]
@[simp] theorem setPort_free (s : State) (p : PortId) (P : Port) : (setPort s p P).free = s.free := by simp [setPort]
@[simp] theorem setPort_mod (s : State) (p : PortId) (P : Port) : (setPort s p P).mod = s.mod := by simp [setPort]
@[simp] theorem setPort_grp (s : State) (p : PortId) (P : Port) : (setPort s p P).grp = s.grp := by simp [setPort]
@[simp] theorem setPort_lanes (s : State) (p : PortId) (P : Port) : (setPort s p P).lanes = s.lanes := by simp [setPort]
@[simp] theorem setPort_tiles (s : State) (p : PortId) (P : Port) : (setPort s p P).tiles = s.tiles := by simp [setPort]

@[simp] theorem modPort_pending (s : State) (p : PortId) (f : Port → Port) : (modPort s p f).pending = s.pending :=
  setPort_pending s p _
@[simp] theorem modPort_free (s : State) (p : PortId) (f : Port → Port) : (modPort s p f).free = s.free := setPort_free s p _
@[simp] theorem modPort_mod (s : State) (p : PortId) (f : Port → Port) : (modPort s p f).mod = s.mod := setPort_mod s p _
@[simp] theorem modPort_grp (s : State) (p : PortId) (f : Port → Port) : (modPort s p f).grp = s.grp := setPort_grp s p _
@[simp] theorem modPort_lanes (s : State) (p : PortId) (f : Port → Port) : (modPort s p f).lanes = s.lanes :=
  setPort_lanes s p _
@[simp] theorem modPort_tiles (s : State) (p : PortId) (f : Port → Port) : (modPort s p f).tiles = s.tiles :=
  setPort_tiles s p _

/-- Both hubs have a node id of the bus, 0 to 63 (R258). -/
theorem hubNode_lt (h : HubId) : hubNode h < 64 := by
  cases h
  · exact Config.nodeH0.isLt
  · exact Nat.mod_lt _ (by decide)

/-- The two hubs never share a node id (R258). -/
theorem hubNode_ne : hubNode .h0 ≠ hubNode .h1 := by
  have a := Config.nodeH0.isLt
  have b := Config.nodeGap.isLt
  simp only [hubNode]
  omega

/-! ## Parts of a tile -/

@[simp] theorem chan_modChan_same (T : Tile) (k : Fin 16) (f : Chan → Chan) :
    chan (modChan T k f) k = f (chan T k) := by
  simp [chan, modChan]

/-- Another channel keeps its state. -/
theorem chan_modChan_ne (T : Tile) {k j : Nat} (f : Chan → Chan) (h : j ≠ k) : chan (modChan T k f) j = chan T j := by
  simp [chan, modChan, Ne.symm h]

@[simp] theorem chan_mapChans (T : Tile) (k : Fin 16) (f : Nat → Chan → Chan) :
    chan (mapChans T f) k = f k (chan T k) := by
  simp [chan, mapChans]

@[simp] theorem seatDrive_setDrive_same (T : Tile) (st : SeatId) (d : SeatDrive) : seatDrive (setDrive T st d) st = d := by
  cases st <;> rfl

theorem seatDrive_setDrive_ne (T : Tile) {st u : SeatId} (d : SeatDrive) (h : u ≠ st) :
    seatDrive (setDrive T st d) u = seatDrive T u := by
  cases st <;> cases u <;> first | exact absurd rfl h | rfl

@[simp] theorem setDrive_chans (T : Tile) (st : SeatId) (d : SeatDrive) : (setDrive T st d).chans = T.chans := by
  cases st <;> rfl

@[simp] theorem duoGet_modCuff_same (T : Tile) (b : Bool) (f : Cuff → Cuff) :
    duoGet (modCuff T b f).cuffs b = f (duoGet T.cuffs b) := by
  cases b <;> rfl

@[simp] theorem modCuff_chans (T : Tile) (b : Bool) (f : Cuff → Cuff) : (modCuff T b f).chans = T.chans := rfl
@[simp] theorem modChan_cuffs (T : Tile) (k : Nat) (f : Chan → Chan) : (modChan T k f).cuffs = T.cuffs := rfl

/-! ## Seats, tags and pools -/

@[simp] theorem seatLane_setSeat_same (m : SeatMap) (st : SeatId) (x : Option LaneId) : seatLane (setSeat m st x) st = x := by
  cases st <;> rfl

theorem seatLane_setSeat_ne (m : SeatMap) {st u : SeatId} (x : Option LaneId) (h : u ≠ st) :
    seatLane (setSeat m st x) u = seatLane m u := by
  cases st <;> cases u <;> first | exact absurd rfl h | rfl

@[simp] theorem poolOf_modPool_same (H : Hub) (c : BufClass) (f : Pool → Pool) : poolOf (modPool H c f) c = f (poolOf H c) := by
  cases c <;> rfl

/-- Another class keeps its pool (R428). -/
theorem poolOf_modPool_ne (H : Hub) {c d : BufClass} (f : Pool → Pool) (h : d ≠ c) :
    poolOf (modPool H c f) d = poolOf H d := by
  cases c <;> cases d <;> first | exact absurd rfl h | rfl

end Sys2Proof.Machine
end

