-- ==== Sys2Proof/Laws/Window.lean ====
section
/-! SUPPORT. What the end of a signature window and the executive's signed work change; a free value used. -/

namespace Sys2Proof.Machine

open Sys2Proof

/-! ## A free value used -/

@[simp] theorem useFree_pending (s : State) : (useFree s).pending = s.pending := rfl
@[simp] theorem useFree_mod (s : State) : (useFree s).mod = s.mod := rfl
@[simp] theorem useFree_grp (s : State) : (useFree s).grp = s.grp := rfl
@[simp] theorem useFree_lanes (s : State) : (useFree s).lanes = s.lanes := rfl
@[simp] theorem useFree_hubs (s : State) : (useFree s).hubs = s.hubs := rfl
@[simp] theorem useFree_tiles (s : State) : (useFree s).tiles = s.tiles := rfl
@[simp] theorem useFree_free (s : State) : (useFree s).free = s.free + 1 := rfl
@[simp] theorem lane_useFree (s : State) (k : LaneId) : lane (useFree s) k = lane s k := by cases k <;> rfl
@[simp] theorem hub_useFree (s : State) (k : HubId) : hub (useFree s) k = hub s k := by cases k <;> rfl
@[simp] theorem tile_useFree (s : State) (k : TileId) : tile (useFree s) k = tile s k := by cases k <;> rfl

/-! ## Windows (R35-R45) -/

/-- Signed work of the executive changes the signatures, the queue, the counters and K alone. -/
theorem execSigned_eq (L : Lane) (items : List (Nat × DWord)) (ins : List DWord) :
    execSigned L items ins =
      { L with sigM := foldItems L.sigM items, kCur := (execSigned L items ins).kCur,
               kHalted := (execSigned L items ins).kHalted, sigK := (execSigned L items ins).sigK,
               ctrs := (execSigned L items ins).ctrs, dq := (execSigned L items ins).dq } := by
  unfold execSigned
  split
  · rename_i h
    simp only [Bool.and_eq_true, List.isEmpty_iff] at h
    rw [h.1]; rfl
  · rw [enqueue_eq]

/-- Signed work of the executive keeps the cores in step. -/
theorem execSigned_inStep {L : Lane} (h : InStep L) (items : List (Nat × DWord)) (ins : List DWord) :
    InStep (execSigned L items ins) := by
  unfold execSigned
  split
  · exact h
  · unfold InStep enqueue at *
    rw [kRun_drain_sigK, kRun_zero_sigK, List.foldl_append, List.foldl_cons, List.foldl_nil, kRun_eq]
    rw [kRun_zero_sigK] at h
    exact congrArg (fun x => foldItems x items) h

/-- What a lane takes in changes its power state, the queue, the counters and K alone. -/
theorem takesIn_frame (ins : List DWord) (L : Lane) : TakesIn L (takesIn ins L) := by
  unfold takesIn TakesIn
  dsimp only
  split
  · rfl
  · rw [execSigned_eq]; rfl

/-- Counting a window's close changes the counters alone. -/
theorem countClose_eq (L : Lane) : countClose L = { L with ctrs := (countClose L).ctrs } := by
  unfold countClose
  dsimp only
  split
  · exact laneCount_eq ..
  · rw [laneCount_eq]
    rw [laneCount_eq L]

/-- A window that is not full stays open. -/
theorem windowFull_small (l : LaneId) (s : State) (h : (lane s l).winOps < 4096) : windowFull l s = s := by
  unfold windowFull
  rw [if_neg (by omega)]

/-- What M has signed stands when K has drained its queue. -/
theorem drained_sigM (L : Lane) : (countClose (kRun L 0 L.dq)).sigM = L.sigM := by
  rw [countClose_eq, kRun_eq]

theorem drained_sigK (L : Lane) : (countClose (kRun L 0 L.dq)).sigK = (kRun L 0 L.dq).sigK := by
  rw [countClose_eq]

/-- A lane without an open comparison keeps its window as it is (R49): fenced for another cause than the time base or an
outvote, in self-test, or retired. -/
theorem closeWindow_off (l : LaneId) (f : DWord) (seen : Bool) (s : State)
    (h : (lane s l).nv.retire ≠ 0 ∨ ((lane s l).fenced = true ∧ (lane s l).fenceCause ≠ 4 ∧ (lane s l).fenceCause ≠ 2) ∨
      ((lane s l).selfTest.running = true ∧ (lane s l).fenced = false)) : closeWindow l f seen s = s := by
  unfold closeWindow
  rcases h with h | ⟨a, b, c⟩ | ⟨a, b⟩
  · simp [h]
  · simp [a, b, c]
  · simp [a, b]

/-- The end of a window of a lane in step: K has drained, the stores have left, and the next window starts. -/
theorem endWindow_inStep (l : LaneId) (s : State) (fr : (lane s l).fenced = false) (nt : (lane s l).selfTest.running = false)
    (nr : (lane s l).nv.retire = 0) (np : (lane s l).st ≠ .spareSplit) (h : InStep (lane s l)) :
    endWindow l s = setLane s l (resetWindow (flushStores (countClose (kRun (lane s l) 0 (lane s l).dq)))) := by
  have e : windowEqual (countClose (kRun (lane s l) 0 (lane s l).dq)) 0 true = true := by
    have h' : (lane s l).sigM = (kRun (lane s l) 0 (lane s l).dq).sigK := h
    simp [windowEqual, drained_sigM, drained_sigK, h']
  simp only [endWindow, closeWindow, fr, nt, nr, np, e, Bool.false_and, Bool.or_false, ne_eq, not_true_eq_false, decide_false,
    Bool.false_eq_true, if_false, if_true]

/-- The end of a window whose signatures differ: the lane fences for a pair mismatch, and its stores do not leave. -/
theorem closeWindow_unequal (l : LaneId) (f : DWord) (seen : Bool) (s : State) (fr : (lane s l).fenced = false)
    (nt : (lane s l).selfTest.running = false) (nr : (lane s l).nv.retire = 0) (np : (lane s l).st ≠ .spareSplit)
    (h : windowEqual (countClose (kRun (lane s l) 0 (lane s l).dq)) f seen = false) :
    ∃ c y M, closeWindow l f seen s = fence (setLane s l M) l 1 c y 0xFFFF ∧ M.mem = (lane s l).mem ∧ M.outBuf = [] ∧
      M.mismatch = min 255 ((lane s l).mismatch + 1) := by
  have m : (countClose (kRun (lane s l) 0 (lane s l).dq)).mem = (lane s l).mem := by rw [countClose_eq, kRun_eq]
  have k : (countClose (kRun (lane s l) 0 (lane s l).dq)).mismatch = (lane s l).mismatch := by rw [countClose_eq, kRun_eq]
  unfold closeWindow
  dsimp only
  generalize countClose (kRun (lane s l) 0 (lane s l).dq) = L2 at h m k
  rw [if_neg (by simp [fr]), if_neg (by simp [fr]), if_neg (by simp [fr, nt, nr]), if_neg np, if_neg (by simp [h])]
  exact ⟨_, _, _, rfl, m, rfl, congrArg (fun n => min 255 (n + 1)) k⟩

end Sys2Proof.Machine
end

