-- ==== Sys2Proof/Machine/Packet.lean ====
section
/-! DEFINITION. The bytes of ring entries: the header that commands, replies and events share (R398), and the command that the
bytes of a command entry spell (R408, R409, R433, R437, R459, R460, R470, R475). -/

namespace Sys2Proof.Machine

open Sys2Proof

/-! ## The header (R398) -/

/-- The VERSION byte. -/
def entryVersion : Nat := 1

/-- The 16 header bytes of a reply, an event or a NOP, little-endian (R398). -/
def headerBytes (e : RingEntry) : List Byte :=
  leBytes 2 e.code ++ leBytes 1 e.flags ++ leBytes 1 entryVersion ++ leBytes 4 e.tag.toNat ++ leBytes 4 e.handle.toNat ++
    leBytes 2 e.data.length ++ leBytes 2 e.status

/-- An entry as it lies in host memory: the header and PLEN bytes (R392). -/
def entryBytes (e : RingEntry) : List Byte := headerBytes e ++ e.data

/-- The header of a command entry from its bytes, as a hub fetches it at a moment in µs after the latest round boundary. -/
def hdrOf (h : HubId) (us : Nat) (bs : List Byte) : Hdr :=
  let flags := leAt bs 2 1
  { hub := h, tag := BitVec.ofNat 32 (leAt bs 4 4), handle := BitVec.ofNat 32 (leAt bs 8 4), fence := flags.testBit 0,
    irq := flags.testBit 1, flagRsv := flags / 4, version := leAt bs 3 1, status := leAt bs 14 2, plen := leAt bs 12 2,
    us := us }

/-! ## Parameters (R408) -/

/-- The create block of CHANNEL_CREATE: the type, and 4 bytes on the fields of that type (R409, R433, R437, R459). -/
def createOf (p : List Byte) : CreateBlock :=
  let b := p.drop 4
  match leAt p 0 1 with
  | 1 => .station (leAt b 0 2)
  | 2 => .eventCh (BitVec.ofNat 64 (leAt b 0 8)) (leAt b 8 1)
  | 3 => .mapping (leAt b 0 1) (leAt b 4 4) (BitVec.ofNat 64 (leAt b 8 8))
      ((List.range (leAt b 2 2)).map fun k => (leAt b (16 + 8 * k) 4, leAt b (20 + 8 * k) 4))
  | 4 => .telemetry (leAt b 0 1) (BitVec.ofNat 64 (leAt b 4 8)) (leAt b 12 1)
  | 5 => .request (leAt b 0 1) (leAt b 1 1)
  | 7 => .counters (leAt b 0 1) (BitVec.ofNat 16 (leAt b 2 2))
  | t => .other t

/-- What a fetch adds to an entry's bytes: the hub, the moment in µs after the latest round boundary, the time stamps of
COUNTER_READ and COUNTER_CLEAR (R461), and the block that UPDATE_BLOCK points to in host memory (R470). -/
structure Fetch where
  hub    : HubId
  us     : Nat
  before : Nat := 0
  after  : Nat := 0
  block  : List Byte := []

/-- The command that the bytes of an entry spell by OPCODE and parameters (R408); none for an opcode that is not listed. -/
def commandOf (x : Fetch) (bs : List Byte) : Option Instr :=
  let hd := hdrOf x.hub x.us bs
  let p := (bs.drop 16).take hd.plen
  let u (off n : Nat) : Nat := leAt p off n
  match leAt bs 0 2 with
  | 0x0000 => some (.nop hd)
  | 0x0101 => some (.identity hd)
  | 0x0102 => some (.laneStatus hd)
  | 0x0103 => some (.groupStatus hd)
  | 0x0104 => some (.tileStatus hd (u 0 1))
  | 0x0105 => some (.contextStatus hd (u 0 1))
  | 0x0106 => some (.stationStatus hd)
  | 0x0201 => some (.channelCreate hd (createOf p))
  | 0x0202 => some (.channelDestroy hd)
  | 0x0203 => some (.eventSubscribe hd (u 0 2) (BitVec.ofNat 32 (u 4 4)))
  | 0x0204 => some (.eventUnsubscribe hd (u 0 2) (BitVec.ofNat 32 (u 4 4)))
  | 0x0301 => some (.contextStart hd (u 0 1))
  | 0x0302 => some (.contextStop hd (u 0 1))
  | 0x0303 => some (.contextRestart hd (u 0 1))
  | 0x0401 => some (.valueChange hd (u 0 1) (u 1 1)
      ((List.range (u 1 1)).map fun k => (u (4 + 8 * k) 4, BitVec.ofNat 32 (u (8 + 8 * k) 4))))
  | 0x0402 => some (.valueRead hd (u 0 1) (u 1 1) ((List.range (u 1 1)).map fun k => u (4 + 4 * k) 4))
  | 0x0501 => some (.updateOpen hd p)
  | 0x0502 => some (.updateBlock hd (u 0 4) ⟨u 4 4, BitVec.ofNat 64 (u 8 8)⟩ x.block)
  | 0x0503 => some (.updateVerify hd)
  | 0x0504 => some (.updatePlan hd (BitVec.ofNat 64 (u 0 8)))
  | 0x0505 => some (.updateConfirm hd)
  | 0x0506 => some (.updateAbort hd)
  | 0x0507 => some (.updateStatus hd)
  | 0x0601 => some (.counterConfig hd (u 0 1) (BitVec.ofNat 32 (u 4 4)) (BitVec.ofNat 64 (u 8 8)))
  | 0x0602 => some (.counterRead hd x.before x.after)
  | 0x0603 => some (.counterClear hd x.before x.after)
  | 0x0701 => some (.telemetryStart hd (u 0 4))
  | 0x0702 => some (.telemetryStop hd)
  | 0x0801 => some (.request hd p)
  | 0x0802 => some (.serviceRead hd (BitVec.ofNat 16 (u 0 2)) (u 2 1))
  | 0x0803 => some (.serviceWrite hd (BitVec.ofNat 16 (u 0 2)) ((p.drop 4).take (u 2 1)))
  | 0x0901 => some (.rotateNow hd)
  | 0x0902 => some (.laneSelfTest hd (u 0 1))
  | 0x0903 => some (.hatConfirm hd (BitVec.ofNat 64 (u 0 8)))
  | 0x0904 => some (.groupRestart hd)
  | 0x0905 => some (.tileReset hd (u 0 1))
  | 0x0906 => some (.driveReset hd (u 0 1))
  | 0x0A01 => some (.settingGet hd (u 0 2))
  | 0x0A02 => some (.settingSet hd (u 0 2) (BitVec.ofNat 32 (u 4 4)))
  | 0x0A03 => some (.settingsSave hd)
  | 0x0A04 => some (.settingsFactory hd (u 0 1))
  | _ => none

end Sys2Proof.Machine
end

