-- ==== Sys2Proof/Machine/Bar0.lean ====
section
/-! DEFINITION. What the host sees of a hub's PCIe function: its configuration (R416), the registers of BAR0 as they read (R393,
R419-R424, R454) and the vector control words and pending bits of BAR4 (R416, R444). No read changes the module (R9), so reads are no
commands. -/

namespace Sys2Proof.Machine

open Sys2Proof

/-! ## The function's configuration (R416) -/

/-- The configuration that each hub's PCIe function presents. -/
structure PcieFunction where
  vendorId    : BitVec 16
  deviceId    : BitVec 16
  revisionId  : BitVec 8
  subVendorId : BitVec 16
  subDeviceId : BitVec 16
  classCode   : BitVec 24
  bar0Bytes   : Nat
  bar0Prefetchable : Bool
  bar4Bytes   : Nat
  bar4Prefetchable : Bool
  msixTable   : Nat
  msixPending : Nat
  vectors     : Nat
  maxPayload  : Nat
  maxReadRequest : Nat
  lanes       : Nat
  aer         : Bool
  flr         : Bool
  ats         : Bool
  sriov       : Bool
  pasid       : Bool
  relaxedOrdering : Bool
  deriving DecidableEq, Repr

/-- The values of R416; the vendor ID stands in the product file, and the subsystem ids equal vendor and device ID. -/
def pcieFunction : PcieFunction :=
  { vendorId := Config.vendorId, deviceId := 0x2403, revisionId := 0xB1, subVendorId := Config.vendorId, subDeviceId := 0x2403,
    classCode := 0x088000, bar0Bytes := 0x10000, bar0Prefetchable := true, bar4Bytes := 0x1000, bar4Prefetchable := false,
    msixTable := 0, msixPending := 0x800, vectors := 16, maxPayload := 512, maxReadRequest := 512, lanes := 2, aer := true,
    flr := true, ats := false, sriov := false, pasid := false, relaxedOrdering := false }

/-! ## BAR0 (R420) -/

/-- The low or the high half of a 64-bit value. -/
def halfOf (v : DWord) (high : Bool) : Word := if high then v.extractLsb' 32 32 else v.extractLsb' 0 32

/-- Identity and hub state (R421). -/
def identityReg (s : State) (h : HubId) (off : Nat) : Word :=
  let H := hub s h
  match off with
  | 0x00 => H.magic
  | 0x04 => BitVec.ofNat 32 (packFields [(16, H.part.toNat), (8, H.siRev.toNat), (1, hubNum h)])
  | 0x08 => H.fwVersion
  | 0x0C => BitVec.ofNat 32 (packFields [(16, H.safetyMajor.toNat), (1, H.isSealed.toNat), (3, H.opState), (1, H.peerAlive.toNat),
      (1, H.serving.toNat), (1, H.reported.toNat), (1, H.degraded.toNat)])
  | 0x10 => halfOf H.round false
  | 0x14 => halfOf H.round true
  | 0x18 => H.adoptions.setWidth 32
  | 0x1C => BitVec.ofNat 32 (itemsInFlight s h % 256)
  | _ => 0

/-- The ring registers from 0x0100 on (R393). -/
def ringReg (H : Hub) (off : Nat) : Word :=
  match off with
  | 0x100 => halfOf H.cmdBase false
  | 0x104 => halfOf H.cmdBase true
  | 0x108 => H.cmdSize.setWidth 32
  | 0x10C => H.cmdCons
  | 0x110 => halfOf H.rpl.base false
  | 0x114 => halfOf H.rpl.base true
  | 0x118 => H.rplSize.setWidth 32
  | 0x11C => H.rpl.prod
  | 0x120 => halfOf H.sev.base false
  | 0x124 => halfOf H.sev.base true
  | 0x128 => H.sevSize.setWidth 32
  | 0x12C => H.sev.prod
  | 0x130 => BitVec.ofNat 32 (packFields [(1, H.enable.toNat), (1, H.running.toNat)])
  | 0x134 => halfOf H.shadow false
  | 0x138 => halfOf H.shadow true
  | _ => 0

/-- The producer index of a ring of a table, 0 where there is none (R422). -/
def prodOf (t : Tbl Ring) (e : Nat) : Word := (tblGet t e).elim 0 (·.prod)

/-- The hub counter block (R424). -/
def countReg (H : Hub) (off : Nat) : Word :=
  if off < 0x1040 then (H.lo.discard.toList[(off - 0x1000) / 4]?).getD 0
  else if off < 0x1080 then (H.hi.discard.toList[(off - 0x1040) / 4]?).getD 0
  else match off with
    | 0x1080 => H.counts.teleOmit
    | 0x1084 => H.counts.dmaError
    | 0x1088 => H.counts.mapSkip
    | 0x108C => H.counts.evtDrops
    | 0x1090 => H.counts.tlmDrops
    | _ => 0

/-- A performance counter's register (R454). -/
def perfReg (free : Nat) (H : Hub) (off : Nat) : Word :=
  let n := off / 0x20
  let c := H.ctrs.toList[n]?.getD {}
  let v := (hubCtrValue free H n).setWidth 64
  match off % 0x20 with
  | 0x00 => halfOf v false
  | 0x04 => halfOf v true
  | 0x08 => c.sel
  | 0x10 => halfOf (c.reload.setWidth 64) false
  | 0x14 => halfOf (c.reload.setWidth 64) true
  | 0x18 => boolWord c.ovf
  | _ => 0

/-- The status mirror (R423). -/
def mirrorReg (M : Mirror) (off : Nat) : Word :=
  let high := off % 8 == 4
  match off / 8 with
  | 0 => if high then 0 else M.sq
  | 1 => halfOf M.shown.lanes.l0 high
  | 2 => halfOf M.shown.lanes.l1 high
  | 3 => halfOf M.shown.lanes.l2 high
  | 4 => halfOf M.shown.lanes.l3 high
  | 5 => halfOf M.shown.group high
  | 6 => halfOf M.shown.tiles.a high
  | 7 => halfOf M.shown.tiles.b high
  | 8 => halfOf M.round high
  | _ => 0

/-- A 32-bit register of BAR0 by its aligned offset (R420): 0 at every offset the map does not list. -/
def bar0Reg (s : State) (h : HubId) (off : Nat) : Word :=
  let H := hub s h
  if off % 4 ≠ 0 then 0
  else if off < 0x100 then identityReg s h off
  else if off < 0x140 then ringReg H off
  else if off = 0x400 then H.cmdProd
  else if off = 0x404 then H.rpl.cons
  else if off = 0x408 then H.sev.cons
  else if 0x500 ≤ off && off < 0x600 then (H.evchCons.toList[(off - 0x500) / 4]?).getD 0
  else if 0x600 ≤ off && off < 0x700 then prodOf H.evch ((off - 0x600) / 4)
  else if 0x700 ≤ off && off < 0x740 then (H.tlmCons.toList[(off - 0x700) / 4]?).getD 0
  else if 0x740 ≤ off && off < 0x780 then (tblGet H.streams ((off - 0x740) / 4)).elim 0 (·.prod)
  else if 0x800 ≤ off && off < 0x900 then (H.peerCons.toList[(off - 0x800) / 4]?).getD 0
  else if 0x900 ≤ off && off < 0xA00 then prodOf H.peerEvch ((off - 0x900) / 4)
  else if 0x1000 ≤ off && off < 0x1100 then countReg H off
  else if 0x1800 ≤ off && off < 0x1900 then perfReg s.free H (off - 0x1800)
  else if 0x2000 ≤ off && off < 0x2100 then mirrorReg H.mirror (off - 0x2000)
  else if 0x3000 ≤ off && off < 0x3100 then
    ((H.valuz.toList[(off - 0x3000) / 0x40]?).map fun c => valuzRead c ((off - 0x3000) % 0x40)).getD 0
  else 0

/-- A hub completes a read: the module is powered and the link is up, whether or not its firmware runs (R419). -/
def bar0Answers (s : State) (h : HubId) : Bool := s.mod.pwrgd && (hub s h).pcieUp

/-- A 32-bit read of BAR0; none where no completion comes (R419). -/
def bar0Read (s : State) (h : HubId) (off : Nat) : Option Word :=
  if bar0Answers s h then some (bar0Reg s h off) else none

/-- A 64-bit aligned read of BAR0: two registers from one moment (R419). -/
def bar0Read64 (s : State) (h : HubId) (off : Nat) : Option DWord :=
  if bar0Answers s h then some (bar0Reg s h (off + 4) ++ bar0Reg s h off) else none

/-! ## BAR4 (R416, R444) -/

/-- The Vector Control word of an MSI-X vector: Mask in bit 0. -/
def vectorControl (s : State) (h : HubId) (v : Fin 16) : Word := boolWord (hub s h).vecs[v].mask

/-- The pending bit array (R416). -/
def pendingBits (s : State) (h : HubId) : BitVec 16 :=
  BitVec.ofNat 16 (((hub s h).vecs.toList.zipIdx.map fun x => if x.1.pending then 2 ^ x.2 else 0).foldl (· + ·) 0)

end Sys2Proof.Machine
end

