-- ==== Sys2Proof/WellFormed.lean ====
section
/-! DEFINITION. Well-formed commands: the operands that a command's encoding, its header or the hardware's own numbering
admits. The machine takes every command; a command that is not well-formed cannot be sent. -/

namespace Sys2Proof

/-- A command header: each field within its width (R398). -/
def wfHdr (hd : Hdr) : Bool :=
  hd.flagRsv < 64 && hd.version < 256 && hd.status < 65536 && hd.plen < 65536

/-- A Brodxo header: each field within its width (R228); a plan has fewer than 8,192 slots (R230). -/
def wfHead (f : FrameHead) : Bool :=
  f.version < 256 && f.ftype < 256 && f.segment < 256 && f.flags < 256 && f.sender < 65536 && f.slot < 8192 && f.len < 65536

/-- A contribution: a context other than 0, each destination's number within 16 bits (R72). -/
def wfContribution (c : Contribution) : Bool := 1 ≤ c.ctx && c.ctx < 256 && c.words.all fun x => x.1 < 65536

/-- An overflow names a counter of its source, and its sample a master, a context and, for a core, a skid of at most 9 (R448, R456, R457). -/
def wfOverflow (src : CtrSource) (n : Nat) (op : SampleOp) : Bool :=
  (match src with
    | .lane _ => n < 16
    | .hub _ => n < 8) && op.master < 5 && op.priv < 3 && op.ctx < 256 && (op.skid ≤ 9 || 2 ≤ op.master)

/-- A create block: each field within its width (R409, R433, R437, R459). -/
def wfBlock : CreateBlock → Bool
  | .station addr => addr < 65536
  | .eventCh _ n => n < 256
  | .mapping ctx minUs _ rs => ctx < 256 && minUs < 2 ^ 32 && rs.length < 256 && rs.all fun r => r.1 < 2 ^ 32 && r.2 < 2 ^ 32
  | .telemetry source _ n => source < 256 && n < 256
  | .request ctx chan => ctx < 256 && chan < 256
  | .counters source _ => source < 256
  | .other ty => ty < 256 && !(1 ≤ ty && ty ≤ 5) && ty != 7

/-- A command is well-formed. -/
def wellFormed (i : Instr) : Bool :=
  match i with
  | .powerGood _ _ _ => true
  | .powerLoss _ => true
  | .pfailWarning _ => true
  | .journalReopen => true
  | .supplyExcursion _ _ _ _ => true
  | .supplyRecovery _ => true
  | .thermalAlert _ _ => true
  | .hubFirmwareLoaded _ _ => true
  | .imageVote => true
  | .imageLoadComplete _ => true
  | .groupFormation _ => true
  | .roundCountTimeout => true
  | .roundBoundary => true
  | .boundaryOffsetFence _ => true
  | .outputPoint ctx => 1 ≤ ctx && ctx < 256
  | .downlinkBuild => true
  | .cycleMark ctx mark => 1 ≤ ctx && ctx < 256 && mark < 8
  | .signatureWindowClose _ _ _ => true
  | .splitTaskCheckpoint _ _ => true
  | .splitDropTimeout _ => true
  | .splitEntry _ march _ => march.all fun x => x.1 < 112
  | .splitTaskStop _ _ _ _ => true
  | .selfTestComplete _ res => res.march.all fun x => x.1 < 112
  | .selfTestResultTimeout _ _ => true
  | .quickTestComplete _ _ _ => true
  | .joinCopyComplete => true
  | .stagedStoreResume _ block => 0x200 ≤ block && block < 0x680
  | .catchUpComplete => true
  | .catchUpDeadline => true
  | .revertHoldoffExpiry _ => true
  | .rotationDue => true
  | .contributionReceived _ cb _ => wfContribution cb
  | .contributionRetryTimeout _ ctx _ _ => 1 ≤ ctx && ctx < 256
  | .comparisonDeadline _ ctx _ => 1 ≤ ctx && ctx < 256
  | .accusationReceived l sender _ _ => l != sender
  | .fenceMessageReceived l sender => l != sender
  | .joinAnnounceReceived _ => true
  | .straitLinkFail a b => a != b
  | .comparatorProving _ _ _ _ => true
  | .paceMeasurement _ _ _ _ => true
  | .tbCompensation _ _ => true
  | .boundaryMarkReceived _ _ _ _ _ => true
  | .timeMeasurementReceived l sender _ => l != sender
  | .timeComparison _ => true
  | .oscillatorCheck _ _ _ => true
  | .scrubStep _ => true
  | .scrubResultReceived l sender _ => l != sender
  | .scrubRepairReceived _ => true
  | .flashImageHash _ => true
  | .flashBlockFailure _ block _ => block < 512
  | .powerStateEntry _ _ => true
  | .laneWake _ => true
  | .hubClockGate _ _ _ => true
  | .thresholdCalibration _ offMv => offMv.length ≤ 16
  | .lanePeriodicRecord _ _ => true
  | .telemetryIntervalRestore _ => true
  | .wearRecord _ _ => true
  | .hubPeriodicRecord _ _ => true
  | .counterOverflow src n op => wfOverflow src n op
  | .valuzScanComplete _ ch data _ => ch < 4 && data.length ≤ 0xA00000
  | .blockApplied _ => true
  | .bankCopyComplete l src => l != src
  | .updateVerifyComplete => true
  | .hubFwRestart _ => true
  | .hubFwRestartTimeout => true
  | .stampedActionReceived _ => true
  | .statusMessageReceived _ _ => true
  | .hubRoundBoundary _ _ => true
  | .nodeIntegrated _ => true
  | .leaveIntegration _ => true
  | .guardianLocked _ => true
  | .guardianListen _ => true
  | .guardianWindowOpen _ slot => slot < 8192
  | .guardianWindowClose _ slot => slot < 8192
  | .slotStart _ x => x.slot < 8192
  | .listenTimeout _ => true
  | .coldStartReceived _ f => wfHead f.head && f.attempt < 256 && f.collisions < 256
  | .syncReceived _ f => wfHead f.head && f.state < 256 && f.values < 256
  | .uplinkReceived _ f => wfHead f.head
  | .claimReceived _ f => wfHead f.head
  | .downlinkFrameReceived _ f => wfHead f.head && f.body.length < 65536
  | .scheduleStandinTakeover => true
  | .spareReleaseTimeout addr => addr < 4096
  | .uplinkSequenceClear addr => addr < 4096
  | .serviceTimeout addr => addr < 4096
  | .gateCommandFrame _ _ => true
  | .tileStrobe _ _ => true
  | .snapshotReceived _ _ => true
  | .tileSnapshotTimeout _ _ => true
  | .debounceChange _ ch _ _ => ch < 16
  | .chatterWindowEnd _ ch => ch < 16
  | .countingPulse _ ch _ => ch < 16
  | .testPulseStart _ ch => ch < 16
  | .testPulseEnd _ ch g => ch < 16 && g.mids.length ≤ 3 && g.subs.length ≤ 6 && g.pairsMa.length ≤ 3
  | .outputOverload _ ch => ch < 16
  | .mittenSourceOverload _ ch => ch < 16
  | .cuffOvercurrent _ _ => true
  | .outputUnswitchable _ ch _ _ => ch < 16
  | .cuffReadbackCheck _ _ _ => true
  | .lplusSag _ _ _ => true
  | .couplerFailure _ ch cp => ch < 16 && cp < 8
  | .couplerSpareSwitched _ ch => ch < 16
  | .seatSilent _ _ => true
  | .discrepancyLimit fn => fn < 65536
  | .driveStandstill drv => drv < 256
  | .driveTMax drv => drv < 256
  | .driveFbTimeout drv => drv < 256
  | .driveSpeedLost drv => drv < 256
  | .hubLost _ => true
  | .adoptionComplete _ => true
  | .pcieLinkDownTimeout _ => true
  | .functionLevelReset _ => true
  | .perst _ _ => true
  | .dmaError _ _ => true
  | .moderationHoldEnd _ _ => true
  | .commandDoorbell _ _ unknown => unknown.all fun x => x.1 < 65536 && !listedOpcodes.contains x.1 && wfHdr x.2
  | .rplConsWrite _ _ => true
  | .sevConsWrite _ _ => true
  | .evchConsWrite _ _ _ => true
  | .peerEvchConsWrite _ _ _ => true
  | .tlmConsWrite _ _ _ => true
  | .ringEnable _ => true
  | .ringDisable _ => true
  | .cntClear _ => true
  | .valuzGo _ ch => ch < 4
  | .valuzAbort _ ch => ch < 4
  | .registerWrite _ off _ => off % 4 == 0 && off < 0x10000
  | .nop hd => wfHdr hd
  | .identity hd => wfHdr hd
  | .laneStatus hd => wfHdr hd
  | .groupStatus hd => wfHdr hd
  | .tileStatus hd tile => wfHdr hd && tile < 256
  | .contextStatus hd ctx => wfHdr hd && ctx < 256
  | .stationStatus hd => wfHdr hd
  | .channelCreate hd cb => wfHdr hd && wfBlock cb
  | .channelDestroy hd => wfHdr hd
  | .eventSubscribe hd code _ => wfHdr hd && code < 65536
  | .eventUnsubscribe hd code _ => wfHdr hd && code < 65536
  | .contextStart hd ctx => wfHdr hd && ctx < 256
  | .contextStop hd ctx => wfHdr hd && ctx < 256
  | .contextRestart hd ctx => wfHdr hd && ctx < 256
  | .valueChange hd ctx n chg => wfHdr hd && ctx < 256 && n < 256 && chg.length == n && chg.all fun x => x.1 < 2 ^ 32
  | .valueRead hd ctx n idx => wfHdr hd && ctx < 256 && n < 256 && idx.length == n && idx.all fun x => x < 2 ^ 32
  | .updateOpen hd hdr => wfHdr hd && hdr.length == hd.plen
  | .updateBlock hd no src data => wfHdr hd && no < 2 ^ 32 && src.len < 2 ^ 32 && data.length == src.len
  | .updateVerify hd => wfHdr hd
  | .updatePlan hd _ => wfHdr hd
  | .updateConfirm hd => wfHdr hd
  | .updateAbort hd => wfHdr hd
  | .updateStatus hd => wfHdr hd
  | .counterConfig hd item _ _ => wfHdr hd && item < 256
  | .counterRead hd before after => wfHdr hd && before ≤ after && after < 2 ^ 64
  | .counterClear hd before after => wfHdr hd && before ≤ after && after < 2 ^ 64
  | .telemetryStart hd period => wfHdr hd && period < 2 ^ 32
  | .telemetryStop hd => wfHdr hd
  | .request hd payload => wfHdr hd && payload.length == hd.plen
  | .serviceRead hd _ len => wfHdr hd && len < 256
  | .serviceWrite hd _ data => wfHdr hd && data.length < 256
  | .rotateNow hd => wfHdr hd
  | .laneSelfTest hd lane => wfHdr hd && lane < 256
  | .hatConfirm hd _ => wfHdr hd
  | .groupRestart hd => wfHdr hd
  | .tileReset hd tile => wfHdr hd && tile < 256
  | .driveReset hd drv => wfHdr hd && drv < 256
  | .settingGet hd sid => wfHdr hd && sid < 65536
  | .settingSet hd sid _ => wfHdr hd && sid < 65536
  | .settingsSave hd => wfHdr hd
  | .settingsFactory hd mode => wfHdr hd && mode < 256
  | .add _ _ _ _ => true
  | .sub _ _ _ _ => true
  | .mul _ _ _ _ => true
  | .div _ _ _ _ => true
  | .mod _ _ _ _ => true
  | .min _ _ _ _ => true
  | .max _ _ _ _ => true
  | .abs _ _ _ => true
  | .and _ _ _ _ => true
  | .or _ _ _ _ => true
  | .xor _ _ _ _ => true
  | .andn _ _ _ _ => true
  | .shl _ _ _ _ => true
  | .shr _ _ _ _ => true
  | .sar _ _ _ _ => true
  | .seq _ _ _ _ => true
  | .sne _ _ _ _ => true
  | .slt _ _ _ _ => true
  | .sltu _ _ _ _ => true
  | .sge _ _ _ _ => true
  | .sgeu _ _ _ _ => true
  | .addi _ _ _ _ => true
  | .andi _ _ _ _ => true
  | .ori _ _ _ _ => true
  | .xori _ _ _ _ => true
  | .shli _ _ _ imm => imm.toNat < 32
  | .shri _ _ _ imm => imm.toNat < 32
  | .sari _ _ _ imm => imm.toNat < 32
  | .slti _ _ _ _ => true
  | .sltiu _ _ _ _ => true
  | .seqi _ _ _ _ => true
  | .mini _ _ _ _ => true
  | .maxi _ _ _ _ => true
  | .lui _ _ _ => true
  | .li _ _ _ => true
  | .ld _ _ _ _ _ => true
  | .ldh _ _ _ _ _ => true
  | .ldhu _ _ _ _ _ => true
  | .ldb _ _ _ _ _ => true
  | .ldbu _ _ _ _ _ => true
  | .st _ _ _ _ _ => true
  | .sth _ _ _ _ _ => true
  | .stb _ _ _ _ _ => true
  | .beq _ _ _ _ => true
  | .bne _ _ _ _ => true
  | .blt _ _ _ _ => true
  | .bge _ _ _ _ => true
  | .bltu _ _ _ _ => true
  | .bgeu _ _ _ _ => true
  | .jmp _ _ => true
  | .jsr _ _ => true
  | .icall _ _ _ => true
  | .icallr _ _ _ => true
  | .ret _ => true
  | .movib _ _ => true
  | .pld _ _ _ sel => sel.toNat ≤ 5
  | .pldx _ _ _ sel => sel.toNat ≤ 5
  | .pst _ _ _ sel => sel.toNat ≤ 2
  | .pstx _ _ _ sel => sel.toNat ≤ 2
  | .ton _ _ _ _ => true
  | .tof _ _ _ _ => true
  | .tp _ _ _ _ => true
  | .tet _ _ _ => true
  | .ctu _ _ _ _ => true
  | .ctd _ _ _ _ => true
  | .ctud _ _ _ _ => true
  | .rtrg _ _ _ _ => true
  | .ftrg _ _ _ _ => true
  | .sr _ _ _ _ => true
  | .rs _ _ _ _ => true
  | .pmrd _ _ _ _ => true
  | .timl _ _ => true
  | .timh _ _ => true
  | .cixl _ _ => true
  | .cixh _ _ => true
  | .fail _ _ => true
  | .illegalInstruction l word => (decodeFbWord l word).isNone
  | .debugHalt _ => true
  | .debugStep _ => true
  | .debugResume _ => true
  | .debugRegisterWrite _ _ _ => true
  | .debugMemoryWrite _ addr _ => addr.toNat % 4 == 0
  | .debugBreakpointSet _ addr => addr.toNat % 4 == 0
  | .breakpointHit _ => true
  | .idcode => true
  | .bypass => true
  | .portLinkChange _ _ _ => true
  | .guardianSelfCheckFail _ => true
  | .seatMapReceived _ _ _ => true
  | .msixMaskClear _ _ => true
  | .telemetrySamplePeriodEnd _ _ => true
  | .fieldTempMeasurement _ _ => true
  | .flashWriteComplete _ _ => true

end Sys2Proof
end

