-- ==== Sys2Proof/Tests/Slice0.lean ====
section
/-! SUPPORT. Small tests: well-formedness, function-block words, single steps with results worked out by hand from the rules,
and for each statement with hypotheses a concrete state and operands that meet them, clause by clause. -/

namespace Sys2Proof.Tests

open Sys2Proof Sys2Proof.Machine

/-! ## Function-block code -/

def vitalCtx : CtxCfg := { num := 1, vital := true, present := true, period := 1, base := 0x200000, size := 0x1000, rootType := 1 }
def plainCtx : CtxCfg := { num := 2, present := true, period := 2, base := 0x201000, size := 0x1000, rootType := 1 }
def twoPoints : StationCfg :=
  { addr := 1, ctx := 1, points := [{ index := 5, out := true, word := true }, { index := 6, word := true }] }
def fbCfg : Cfg := { ctxs := [vitalCtx, plainCtx], stations := [twoPoints] }

/-- Instance headers (type 1 of 4 units, type 2 of 1 unit), type table entries of both types, two entries and a word. -/
def fbMem : Mem :=
  memPutWord (memPutWord (memPutWord (memPutWord (memPutWord (memPutWord (memPutWord [] 0x4114 4) 0x4120 0x20000)
    0x200000 0x00100004) 0x200004 0x8000F1F2) 0x200040 0x00200001) 0x600014 0x12347FF0) 0x600018 0x89AB0001

/-- The initial image with the first header, as a bank holds it: directory entry 0, section 3 at 0x80. -/
def fbBank : Bank :=
  { data := memPutWord (memPutWord (memPutWord (memPutWord [] 0 3) 4 0x80) 8 0x40) 0x80 0x00100004 }

def fbTask : Task :=
  { ctx := 1, pc := 0x20000, ib := 0x200000, now := 0x100000005, cyc := 7,
    x := ((Vector.replicate 32 0).setIfInBounds 1 0x7FFFFFFF).setIfInBounds 2 0xFFFFFFFD }

def fbLane (T : Task) : Lane := { st := .seated, cur := some T, cfg := fbCfg, mem := fbMem, nv := { bankA := fbBank } }
def fbState (T : Task) (L : Lane) : State := { mod := { pwrgd := true }, lanes := ⟨{ L with cur := some T }, {}, {}, {}⟩ }
def fbS : State := fbState fbTask (fbLane fbTask)

/-- The byte at an offset of the first instance set: the first byte of a slot. -/
def slotS (off : Nat) (b : Byte) : State := fbState fbTask { fbLane fbTask with mem := memPut fbMem (0x200000 + off) b }

theorem test_ready (T : Task) (L : Lane) (hf : L.fenced = false) (hw : L.wait = none) (hh : L.dbg.halted = false) :
    Ready (fbState T L) .l0 T := ⟨rfl, hf, hw, .inl hh, rfl⟩

theorem test_witness_ready : Ready fbS .l0 fbTask := test_ready _ _ rfl rfl rfl

def regAfter (i : Instr) (r : Reg) : Option Word :=
  match exec i fbS with
  | .next t => (lane t .l0).cur.map fun u => getX u r
  | _ => none
def pcAfter (i : Instr) : Option Word :=
  match exec i fbS with
  | .next t => (lane t .l0).cur.map (·.pc)
  | _ => none
def faultAfter (i : Instr) : Option Nat :=
  match exec i fbS with
  | .next t => if (ctxRun (lane t .l0) 1).st = .safeFault then some (ctxRun (lane t .l0) 1).fault else none
  | _ => none

/-! Results by hand: X1 = 2^31 - 1, X2 = -3, X0 = 0. -/

theorem test_add_saturates : regAfter (.add .l0 3 1 1) 3 = some 0x7FFFFFFF := by decide
theorem test_sub : regAfter (.sub .l0 3 2 1) 3 = some 0x80000000 := by decide
theorem test_mul_saturates : regAfter (.mul .l0 3 1 2) 3 = some 0x80000000 := by decide
theorem test_div_truncates : regAfter (.div .l0 3 1 2) 3 = some 0xD5555556 := by decide
theorem test_div_by_zero : regAfter (.div .l0 3 2 0) 3 = some 0x80000000 := by decide
theorem test_mod_sign : regAfter (.mod .l0 3 2 1) 3 = some 0xFFFFFFFD := by decide
theorem test_abs : regAfter (.abs .l0 3 2) 3 = some 3 := by decide
theorem test_addi_negative : regAfter (.addi .l0 3 0 0xFFF) 3 = some 0xFFFFFFFF := by decide
theorem test_ori_zero_extends : regAfter (.ori .l0 3 0 0xFFF) 3 = some 0xFFF := by decide
theorem test_sar : regAfter (.sari .l0 3 2 1) 3 = some 0xFFFFFFFE := by decide
theorem test_shr : regAfter (.shri .l0 3 2 28) 3 = some 15 := by decide
theorem test_slt : regAfter (.slt .l0 3 2 1) 3 = some 1 := by decide
theorem test_sltu : regAfter (.sltu .l0 3 2 1) 3 = some 0 := by decide
theorem test_sltiu : regAfter (.sltiu .l0 3 1 0xFFF) 3 = some 1 := by decide
theorem test_lui : regAfter (.lui .l0 3 0xFEDCB) 3 = some 0xFEDCB000 := by decide
theorem test_li : regAfter (.li .l0 3 0xFEDCB) 3 = some 0xFFFFEDCB := by decide
theorem test_timh : regAfter (.timh .l0 3) 3 = some 1 := by decide
theorem test_write_x0 : regAfter (.add .l0 0 1 2) 0 = some 0 := by decide
theorem test_ldh_signed : regAfter (.ldh .l0 true 3 0 4) 3 = some 0xFFFFF1F2 := by decide
theorem test_ldbu : regAfter (.ldbu .l0 true 3 0 7) 3 = some 0x80 := by decide
theorem test_pld_signed_value : regAfter (.pld .l0 3 6 2) 3 = some 0xFFFF89AB := by decide
theorem test_pld_status : regAfter (.pld .l0 3 5 3) 3 = some 0x7F := by decide
theorem test_pst_clamps : (match exec (.pst .l0 2 5 0) fbS with
    | .next t => laneWord (lane t .l0) 0x600014
    | _ => 0) = 0x00007FF0 := by decide
theorem test_beq_not_taken : pcAfter (.beq .l0 1 2 8) = some 0x20004 := by decide
theorem test_bne_backward : pcAfter (.bne .l0 1 2 0xFFF) = some 0x1FFFC := by decide
theorem test_jmp : pcAfter (.jmp .l0 0x10) = some 0x20040 := by decide
theorem test_icall : pcAfter (.icall .l0 2 4) = some 0x20000 := by decide
theorem test_vital_load_outside : faultAfter (.ld .l0 false 3 0 0) = some 5 := by decide
theorem test_store_over_header : faultAfter (.st .l0 true 3 0 0) = some 5 := by decide
theorem test_misaligned : faultAfter (.ld .l0 true 3 0 6) = some 6 := by decide
theorem test_point_of_no_one : faultAfter (.pld .l0 3 7 0) = some 3 := by decide
theorem test_point_direction : faultAfter (.pst .l0 3 6 0) = some 4 := by decide
theorem test_fail : faultAfter (.fail .l0 1) = some 12 := by decide
theorem test_slot_kind : (match exec (.ton .l0 3 1 2) (slotS 8 0x20) with
    | .next t => (ctxRun (lane t .l0) 1).fault
    | _ => 0) = 11 := by decide

/-! Witnesses: SaturatingArithmetic, LogicMinimumMaximum, Compares, ImmediatesAndTaskValues and ContextFaultsEndTheRun ask for
Ready alone (test_witness_ready) and, the last, for a word that decodes to nothing. -/

theorem test_witness_division : Ready fbS .l0 fbTask ∧ getX fbTask 0 = 0 ∧ getX fbTask 2 ≠ 0 :=
  ⟨test_witness_ready, by decide, by decide⟩
theorem test_witness_shifts : Ready fbS .l0 fbTask ∧ (31 : BitVec 12).toNat < 32 ∧ 32 ≤ (32 : BitVec 12).toNat :=
  ⟨test_witness_ready, by decide, by decide⟩
theorem test_witness_illegal : Ready fbS .l0 fbTask ∧ decodeFbWord .l0 0 = none := ⟨test_witness_ready, by decide⟩

/-- The last aligned address of the range, through the offset -4 from a register. -/
def topTask : Task := { fbTask with x := fbTask.x.setIfInBounds 3 0x201000 }
def topS : State := fbState topTask (fbLane topTask)
theorem test_witness_loads : Ready topS .l0 topTask ∧ ctxCfg? (lane topS .l0).cfg 1 = some vitalCtx ∧
    (0x200FFC : Nat) = ((if false then topTask.ib else 0) + getX topTask 3 + (0xFFC : BitVec 12).signExtend 32).toNat ∧
    0x200000 ≤ 0x200FFC ∧ 0x200FFC + 4 ≤ 0x200000 + 0x1000 ∧ 0x200FFC % 4 = 0 :=
  ⟨test_ready _ _ rfl rfl rfl, by decide, by decide, by decide, by decide, by decide⟩
theorem test_no_join (s : State) (l : LaneId) (a n : Nat) (h : s.grp.join = none) : NoStaging s l a n := by
  intro j e; rw [h] at e; exact absurd e (by simp)
theorem test_witness_stores : Ready topS .l0 topTask ∧ ctxCfg? (lane topS .l0).cfg 1 = some vitalCtx ∧
    overHeader (lane topS .l0) 0x200FFC 4 = false ∧ NoStaging topS .l0 0x200FFC 4 :=
  ⟨test_ready _ _ rfl rfl rfl, by decide, by decide, test_no_join _ _ _ _ rfl⟩

/-- An address one byte before the own range, one in a register block, a misaligned one inside, and the header. -/
def edgeTask : Task :=
  { fbTask with x := ((fbTask.x.setIfInBounds 3 0x1FFFFF).setIfInBounds 4 0x40003FFC).setIfInBounds 5 0x40005FFC }
def edgeS : State := fbState edgeTask (fbLane edgeTask)
def edgeOwn (a : Nat) : Bool := 0x200000 ≤ a && a + 4 ≤ 0x201000
def edgeBlock (a : Nat) : Bool := (0x40003000 ≤ a && a + 4 ≤ 0x40004000) || (0x40005000 ≤ a && a + 4 ≤ 0x40006000)
theorem test_witness_vital_faults : Ready edgeS .l0 edgeTask ∧ ctxCfg? (lane edgeS .l0).cfg 1 = some vitalCtx ∧
    vitalCtx.vital = true ∧
    [(false, (3 : Reg), (0 : BitVec 12)), (false, 4, 0), (false, 5, 0), (true, 0, 6), (true, 0, 0)].map
      (fun x => ((if x.1 then edgeTask.ib else 0) + getX edgeTask x.2.1 + x.2.2.signExtend 32).toNat) =
      [0x1FFFFF, 0x40003FFC, 0x40005FFC, 0x200006, 0x200000] ∧
    [0x1FFFFF, 0x40003FFC, 0x40005FFC, 0x200006, 0x200000].map edgeOwn = [false, false, false, true, true] ∧
    [0x1FFFFF, 0x40003FFC, 0x40005FFC].map edgeBlock = [false, true, true] ∧ 0x40003FFC % 4 = 0 ∧ 0x200006 % 4 ≠ 0 ∧
    overHeader (lane edgeS .l0) 0x200006 4 = false ∧ overHeader (lane edgeS .l0) 0x200000 4 = true :=
  ⟨test_ready _ _ rfl rfl rfl, by decide, by decide, by decide, by decide, by decide, by decide, by decide, by decide,
    by decide⟩

def pointTask : Task := { fbTask with x := ((fbTask.x.setIfInBounds 3 5).setIfInBounds 4 6).setIfInBounds 5 131072 }
def pointS : State := fbState pointTask (fbLane pointTask)
theorem test_witness_points : Ready pointS .l0 pointTask ∧
    pointInfo? (lane pointS .l0).cfg 5 = some { ctx := 1, out := true, word := true } ∧
    pointInfo? (lane pointS .l0).cfg 6 = some { ctx := 1, out := false, word := true } ∧
    getX pointTask 3 = 5 ∧ getX pointTask 4 = 6 ∧ 131071 < (getX pointTask 5).toNat ∧
    pointInfo? (lane pointS .l0).cfg 131071 = none ∧ (5 : BitVec 4).toNat ≤ 5 ∧ (2 : BitVec 4).toNat ≤ 2 ∧
    NoStaging pointS .l0 (0x600000 + 4 * 5 + 2) 2 :=
  ⟨test_ready _ _ rfl rfl rfl, by decide, by decide, by decide, by decide, by decide, by decide, by decide, by decide,
    test_no_join _ _ _ _ rfl⟩

theorem test_witness_branches : Ready fbS .l0 fbTask ∧
    fbTask.pc + BitVec.ofInt 32 (4 * (0x7FF : BitVec 12).toInt) = 0x21FFC ∧ InCode 0x21FFC ∧
    InCode 0x14100 ∧ InCode 0x1BFFFC ∧ ¬ InCode 0x140FC ∧ ¬ InCode 0x1C0000 ∧ ¬ InCode 0x14102 :=
  ⟨test_witness_ready, by decide, by unfold InCode; decide, by unfold InCode; decide, by unfold InCode; decide,
    by unfold InCode; decide, by unfold InCode; decide, by unfold InCode; decide⟩
def deepTask (n : Nat) : Task := { fbTask with stack := List.replicate n (0x20000, 0x200000) }
theorem test_witness_jumps : Ready fbS .l0 fbTask ∧ fbTask.pc + BitVec.ofInt 32 (4 * (0x3FFFFF : BitVec 22).toInt) = 0x1FFFC ∧
    InCode 0x1FFFC ∧ (deepTask 31).stack.length < 32 ∧ 32 ≤ (deepTask 32).stack.length ∧
    fbTask.pc + BitVec.ofInt 32 (4 * (0x200000 : BitVec 22).toInt) = 0xFF820000 ∧ ¬ InCode 0xFF820000 :=
  ⟨test_witness_ready, by decide, by unfold InCode; decide, by decide, by decide, by decide, by unfold InCode; decide⟩

/-- ICALL of the second instance: type 2 at IB + 64, and by registers. -/
def callTask : Task := { fbTask with x := (fbTask.x.setIfInBounds 3 0x200040).setIfInBounds 4 2 }
def callS : State := fbState callTask (fbLane callTask)
theorem test_witness_calls : Ready callS .l0 callTask ∧ ctxCfg? (lane callS .l0).cfg 1 = some vitalCtx ∧
    vitalCtx.base + vitalCtx.size ≤ 2 ^ 32 ∧ 0x200040 + 16 ≤ vitalCtx.base + vitalCtx.size ∧
    seenWord callS .l0 0x200040 = 0x00200001 ∧ (0x00200001 : Word).toNat / 2 ^ 20 = (2 : BitVec 12).toNat ∧
    (0x00200001 : Word).toNat / 2 ^ 20 ≠ (1 : BitVec 12).toNat ∧
    BitVec.ofNat 32 (typeCode (lane callS .l0).mem 2) = (0x20000 : Word) ∧ InCode 0x20000 ∧
    0x200040 = callTask.ib.toNat + 16 * (4 : BitVec 14).toNat ∧ 0x200040 = (getX callTask 3).toNat ∧
    getX callTask 4 = (2 : BitVec 12).setWidth 32 ∧ callTask.stack.length < 32 ∧
    (getX callTask 4).toNat % 16 ≠ 0 ∧ 4096 ≤ (getX callTask 3).toNat :=
  ⟨test_ready _ _ rfl rfl rfl, by decide, by decide, by decide, by decide, by decide, by decide, by decide,
    by unfold InCode; decide, by decide, by decide, by decide, by decide, by decide, by decide⟩
theorem test_witness_returns : Ready (fbState (deepTask 1) (fbLane fbTask)) .l0 (deepTask 1) ∧
    (deepTask 1).stack = (0x20000, 0x200000) :: [] ∧ InCode 0x20000 ∧ Ready fbS .l0 fbTask ∧ fbTask.stack = [] ∧
    fbTask.mark = none ∧ ¬ InCode 0 :=
  ⟨test_ready _ _ rfl rfl rfl, by decide, by unfold InCode; decide, test_witness_ready, by decide, by decide,
    by unfold InCode; decide⟩

theorem test_slot (off n al kind : Nat) (b : Byte)
    (h : 4 ≤ off ∧ off + n ≤ 64 ∧ off % al = 0 ∧ 0x200000 % al = 0 ∧ (0x200000 + off) % al = 0 ∧
      (b.toNat / 16 = 0 ∨ b.toNat / 16 = kind))
    (hn : overHeader (lane (slotS off b) .l0) (0x200000 + off) n = false)
    (hb : seen (slotS off b) .l0 (0x200000 + off) = b)
    (hh : (seenWord (slotS off b) .l0 0x200000).toNat % 2 ^ 20 = 4) :
    SlotOk (slotS off b) .l0 fbTask (0x200000 + off) n al kind :=
  ⟨by change 0x200000 + 4 ≤ _; omega, by rw [show fbTask.ib.toNat = 0x200000 from rfl, hh]; omega, h.2.2.2.2.1, hn,
    by rw [hb]; exact h.2.2.2.2.2, test_no_join _ _ _ _ rfl⟩

theorem test_witness_timers : Ready (slotS 48 0x10) .l0 fbTask ∧ 0x200000 + 48 = fbTask.ib.toNat + 4 * (12 : BitVec 12).toNat ∧
    SlotOk (slotS 8 0) .l0 fbTask 0x200008 16 8 1 ∧ SlotOk (slotS 48 0x10) .l0 fbTask 0x200030 16 8 1 ∧
    SlotOk (slotS 48 0x20) .l0 fbTask 0x200030 16 8 2 ∧ SlotOk (slotS 48 0x30) .l0 fbTask 0x200030 16 8 3 :=
  ⟨test_ready _ _ rfl rfl rfl, by decide, test_slot 8 16 8 1 0 (by decide) (by decide) (by decide) (by decide),
    test_slot 48 16 8 1 0x10 (by decide) (by decide) (by decide) (by decide),
    test_slot 48 16 8 2 0x20 (by decide) (by decide) (by decide) (by decide),
    test_slot 48 16 8 3 0x30 (by decide) (by decide) (by decide) (by decide)⟩
theorem test_witness_counters : SlotOk (slotS 4 0x40) .l0 fbTask 0x200004 12 4 4 ∧
    SlotOk (slotS 52 0x50) .l0 fbTask 0x200034 12 4 5 ∧ SlotOk (slotS 4 0x60) .l0 fbTask 0x200004 12 4 6 :=
  ⟨test_slot 4 12 4 4 0x40 (by decide) (by decide) (by decide) (by decide),
    test_slot 52 12 4 5 0x50 (by decide) (by decide) (by decide) (by decide),
    test_slot 4 12 4 6 0x60 (by decide) (by decide) (by decide) (by decide)⟩
theorem test_witness_edges : SlotOk (slotS 60 0x70) .l0 fbTask 0x20003C 4 4 7 ∧
    SlotOk (slotS 4 0x80) .l0 fbTask 0x200004 4 4 8 ∧ SlotOk (slotS 4 0x90) .l0 fbTask 0x200004 4 4 9 ∧
    SlotOk (slotS 4 0xA0) .l0 fbTask 0x200004 4 4 10 ∧ (9 : Nat) ≠ 7 ∧ (seen (slotS 4 0x90) .l0 0x200004).toNat / 16 = 9 :=
  ⟨test_slot 60 4 4 7 0x70 (by decide) (by decide) (by decide) (by decide),
    test_slot 4 4 4 8 0x80 (by decide) (by decide) (by decide) (by decide),
    test_slot 4 4 4 9 0x90 (by decide) (by decide) (by decide) (by decide),
    test_slot 4 4 4 10 0xA0 (by decide) (by decide) (by decide) (by decide), by decide, by decide⟩
theorem test_witness_elapsed : 0x200030 = fbTask.ib.toNat + 4 * (12 : BitVec 12).toNat ∧ fbTask.ib.toNat + 4 ≤ 0x200030 ∧
    [0, 0x10, 0x20, 0x30, 0x40].map (fun b => (seen (slotS 48 b) .l0 0x200030).toNat / 16) = [0, 1, 2, 3, 4] ∧
    0x200030 + 16 ≤ fbTask.ib.toNat + 16 * ((seenWord (slotS 48 0x10) .l0 fbTask.ib.toNat).toNat % 2 ^ 20) ∧
    0x200030 % 8 = 0 := ⟨by decide, by decide, by decide, by decide, by decide⟩

def plainTask : Task := { fbTask with ctx := 2, ib := 0x201000 }
def plainS (op : OpState) (user : Bool) : State :=
  { fbState plainTask (fbLane plainTask) with mod := { pwrgd := true, op := op }, grp := { settings := { pmuUser := user } } }
theorem test_witness_counter_reads : Ready (plainS .service true) .l0 plainTask ∧
    ctxCfg? (lane (plainS .service true) .l0).cfg 2 = some plainCtx ∧ plainCtx.vital = false ∧
    (lane (plainS .service true) .l0).ctrs.ctr.toList[(15 : BitVec 12).toNat]? = some {} ∧ 15 < (16 : BitVec 12).toNat ∧
    ((plainS .service true).mod.op = .service ∧ (plainS .service true).mod.activating = false ∧
      (lane (plainS .service true) .l0).selfTest.running = false ∧ (plainS .service true).grp.settings.pmuUser = true) ∧
    ¬ (plainS .service false).grp.settings.pmuUser = true ∧ Ready (plainS .service false) .l0 plainTask :=
  ⟨⟨rfl, rfl, rfl, .inl rfl, rfl⟩, by decide, by decide, by decide, by decide, by decide, by decide,
    ⟨rfl, rfl, rfl, .inl rfl, rfl⟩⟩

/-! ## The module: a FULL group in service -/

def fitLane (st : LaneSt) : Lane := { st := st, verdict := 1, loaded := true, imgOk := true, gatesOn := true, hubWords := true }
def laneL (st : LaneSt) (f : Lane → Lane) : Lane := f (fitLane st)
def fullGrp : Group :=
  { gst := .full, seats := ⟨some .l0, some .l1, some .l2⟩, spare := some .l3, firstBoundary := true, roundFixed := true,
    round := 100, groupTime := 1000000 }
/-- A FULL group: L0 as given, L1 and L2 seated, L3 the paired spare; the group and the module as changed. -/
def fullS (g : Group → Group) (l0 l3 : Lane → Lane) : State :=
  { mod := { pwrgd := true, op := .service }, grp := g fullGrp,
    lanes := ⟨l0 (fitLane .seated), fitLane .seated, fitLane .seated, l3 (fitLane .sparePaired)⟩ }
def run : State := fullS id id id
/-- A DEGRADED group of L0 and L1. -/
def pairS (g : Group → Group) (l0 : Lane → Lane) : State :=
  fullS (fun x => g { x with gst := .degraded, seats := ⟨some .l0, some .l1, none⟩, spare := none }) l0 id

theorem test_witness_power : State.reset.mod.pwrgd = false ∧ (∀ a b c, Instr.imageVote ≠ .powerGood a b c) ∧
    run.mod.pwrgd = true ∧ 19 < 20 ∧ 100 ≤ 100 ∧ 20 ≤ 20 ∧ 99 < 100 ∧ 1 < 2 ∧ 10 ≤ 10 ∧
    (lane (fullS id (fun L => { L with nv := { retire := 1 } }) id) .l0).nv.retire ≠ 0 ∧ (lane run .l0).nv.retire = 0 :=
  ⟨rfl, fun _ _ _ => nofun, rfl, by decide, by decide, by decide, by decide, by decide, by decide, by decide,
    by decide⟩

theorem test_witness_supply : RailInRange .vdd 805 ∧ RailInRange .vaux 1920 ∧ RailInRange .doze 560 ∧ 999 < 1000 ∧
    ¬ RailWatched (lane run .l0).power .doze ∧ RailOut .vdd 799 ∧ RailOut .vaux 1951 ∧ RailOut .doze 549 ∧
    RailWatched (lane run .l0).power .vdd ∧ RailWatched (lane run .l0).power .vaux ∧ RailWatched .doze .doze ∧
    (lane run .l0).fenced = false ∧ (lane run .l0).nv.retire = 0 ∧ supplyFences24 run .l0 < 2 ∧
    2 ≤ supplyFences24 (fullS id (fun L => { L with supplyFences := [999998, 999999] }) id) .l0 ∧
    (lane (fullS id (fun L => { L with supplyOk := false }) id) .l0).supplyOk = false := by
  refine ⟨?_, ?_, ?_, ?_, ?_, ?_, ?_, ?_, ?_, ?_, ?_, ?_, ?_, ?_, ?_, ?_⟩ <;>
    first | decide | (unfold RailInRange; decide) | (unfold RailOut; decide) | (unfold RailWatched; decide)

def hotS (ds : List Die) : State := { run with mod := { run.mod with hot := ds, talertN := false } }
theorem test_witness_temperature : run.mod.pwrgd = true ∧ (123 : Int) ≤ 123 ∧ (112 : Int) ≤ 112 ∧ (116 : Int) < 117 ∧
    (111 : Int) < 112 ∧ (∀ e ∈ (hotS [.lane .l1]).mod.hot, e = .lane .l1) ∧
    .lane .l0 ∈ (hotS [.lane .l0, .lane .l1]).mod.hot ∧ Die.lane .l0 ≠ .lane .l1 :=
  ⟨rfl, by decide, by decide, by decide, by decide, by decide, by decide, by decide⟩

/-- Four lanes that have passed their tests, unsealed, with an image whose header fits (R187, R188). -/
def startLane : Lane :=
  { verdict := 1, loaded := true, imgOk := true, cfg := { magicOk := true, format := 1, safetyMajor := 3 },
    nv := { bankA := { major := some 3 } } }
def formS (f : Group → Group) (L : Lane) : State :=
  { mod := { pwrgd := true }, grp := f {}, lanes := ⟨startLane, L, L, L⟩ }
theorem test_witness_start : (hub run .h0).fwRunning = false ∧ lossDue run .h0 = false ∧
    (formS id startLane).grp.gst = .forming ∧ (formS id startLane).grp.voted = none ∧
    (∀ k, (lane (formS id startLane) k).selfTest.running = false) ∧
    (∀ k ∈ voters (formS id startLane), (lane (formS id startLane) k).nv.sess = none) ∧
    2 ≤ votesFor (formS id startLane) 0 ∧
    (∀ k ∈ voters (formS id startLane), activeImage (lane (formS id startLane) k).nv = 0) ∧
    (lane (formS id { startLane with loaded := false }) .l1).imgOk = true ∧
    (lane (formS id { startLane with loaded := false }) .l1).loaded = false ∧
    (formS (fun g => { g with voted := some 0 }) startLane).grp.voted.isSome = true ∧
    (∀ k, eligible (formS (fun g => { g with voted := some 0 }) startLane) k = true) ∧
    (∀ k, (lane (formS id startLane) k).nv.spareRec = none) :=
  ⟨rfl, by decide, rfl, rfl, fun k => by cases k <;> rfl, by decide, by decide, by decide, rfl, rfl, rfl,
    fun k => by cases k <;> decide, fun k => by cases k <;> rfl⟩
def poorS : State := formS (fun g => { g with voted := some 0 }) { startLane with verdict := 0 }
theorem test_witness_start_safe : poorS.grp.gst = .forming ∧ poorS.grp.voted.isSome = true ∧
    (∀ k, (lane poorS k).selfTest.running = false) ∧ poorS.grp.join = none ∧
    (∀ k, (lane poorS k).imgOk = true → (lane poorS k).loaded = true ∨ (lane poorS k).nv.retire ≠ 0) ∧
    (∀ k, eligible poorS k = true → k = .l0) :=
  ⟨rfl, rfl, fun k => by cases k <;> rfl, rfl, fun k _ => by cases k <;> exact .inl rfl,
    fun k => by cases k <;> decide⟩
theorem test_witness_round_count : (fullS (fun g => { g with roundFixed := false }) id id).grp.roundFixed = false ∧
    Runs (fullS (fun g => { g with roundFixed := false }) id id) ∧ run.grp.session = none :=
  ⟨rfl, ⟨by decide, by decide⟩, rfl⟩

theorem test_runs : Runs run := ⟨by decide, by decide⟩
theorem test_runs_pair : Runs (pairS id id) := ⟨by decide, by decide⟩

/-! ## The pair -/

theorem test_witness_windows : (lane run .l0).fenced = false ∧ (lane run .l0).nv.retire = 0 ∧
    (lane run .l0).selfTest.running = false ∧ memWf (lane run .l0).mem = true ∧ (lane run .l0).st ≠ .spareSplit ∧
    (lane (fullS id id fun L => { L with st := .spareSplit }) .l3).st = .spareSplit ∧
    ((lane run .l0).sigM = (kRun (lane run .l0) 0 (lane run .l0).dq).sigK ^^^ 0 ∧ true = true) ∧
    ¬ ((lane run .l0).sigM = (kRun (lane run .l0) 0 (lane run .l0).dq).sigK ^^^ 1) :=
  ⟨rfl, rfl, rfl, by decide, by decide, rfl, ⟨by decide, rfl⟩, by decide⟩

def mTask (n : Nat) (st : SplitStatus) : SplitTask := { tid := n, core := .m, status := st }
def splitS (u : Bool) (ts : List SplitTask) : State :=
  fullS id id fun L => { L with st := .spareSplit, unsplit := u, split := ts }
theorem test_witness_split : run.grp.spare = some .l3 ∧ (lane run .l3).st = .sparePaired ∧
    (lane run .l3).dbg.halted = false ∧ run.grp.join = none ∧ run.grp.rotDeferred = false ∧ run.grp.revertDue ≠ some .l3 ∧
    (lane run .l3).spareSince + 10000 ≤ run.grp.groupTime.toNat ∧ (lane run .l3).nv.flagged = [] ∧
    (lane run .l3).fenced = false ∧ (lane run .l3).nv.retire = 0 ∧ (lane run .l3).selfTest.running = false ∧
    InStep (lane run .l3) ∧
    (lane (splitS true [mTask 1 .running, mTask 2 .running]) .l3).unsplit = true ∧
    mTask 1 .running ∈ (lane (splitS true [mTask 1 .running, mTask 2 .running]) .l3).split ∧
    (lane (splitS true []) .l3).splitPend = false ∧
    (∃ j ∈ (lane (splitS true [mTask 1 .running, mTask 2 .running]) .l3).split, j.status = .running ∧ j.tid ≠ 1) ∧
    (∀ j ∈ (lane (splitS true [mTask 1 .running, mTask 2 .saved]) .l3).split, j.status = .running → j.tid = 1) ∧
    (lane (splitS false [mTask 1 .running]) .l3).split.find? (fun t => t.tid == 1 && t.status == .running) =
      some (mTask 1 .running) ∧
    splitAllowed (lane (splitS false []) .l3) .m 0x400000 false = false :=
  ⟨rfl, rfl, rfl, rfl, rfl, by decide, by decide, rfl, rfl, rfl, rfl, by unfold InStep; decide, rfl, by decide, rfl, by decide, by decide, by decide, by decide⟩

/-- The spare unsplits for a join of its own, at step 2. -/
def unsplitS : State :=
  fullS (fun g => { g with join := some { kind := .revert, joiner := .l3, leaver := some .l2, step := 2 }, spare := none }) id
    fun L => { L with st := .spareSplit, unsplit := true }
theorem test_witness_unsplit : (lane unsplitS .l3).st = .spareSplit ∧ (lane unsplitS .l3).unsplit = true ∧
    (lane unsplitS .l3).splitPend = false ∧ (∃ j, unsplitS.grp.join = some j ∧ j.joiner = .l3 ∧ j.step = 2) ∧
    (lane unsplitS .l3).dbg.halted = false := ⟨rfl, rfl, rfl, ⟨_, rfl, rfl, rfl⟩, rfl⟩

def testRes (m k : DWord) (sh : Bool) : SelfTestResult :=
  { m := some m, k := some k, shared := sh, rate0 := 0, rate1 := 1000, march := [], otpOk := true, block := 0, ms := 0 }
def testS (late : Bool) : State := formS id { startLane with selfTest := { running := true, lateM := late } }
def joinS (j : Join) : State := fullS (fun g => { g with join := some j, spare := none }) id fun L => { L with st := .joining }
def aJoin (step : Nat) : Join := { kind := .revert, joiner := .l3, leaver := some .l2, step := step }
theorem test_witness_self_tests : (lane (testS false) .l1).selfTest.running = true ∧ (lane (testS false) .l1).nv.retire = 0 ∧
    (testS false).grp.gst = .forming ∧ (lane (testS false) .l1).tb.failed0 = false ∧
    (lane (testS false) .l1).tb.failed1 = false ∧ (lane (testS false) .l1).selfTest.fenced = false ∧
    (testRes 0 0 true).m = some (lane (testS false) .l1).otp.expM ∧
    (testRes 1 0 true).m ≠ some (lane (testS false) .l1).otp.expM ∧ (testRes 0 0 true).k = some (lane (testS false) .l1).otp.expK ∧
    ¬ 1000 < ((testRes 0 0 true).rate0 - (testRes 0 0 true).rate1).natAbs ∧ 1000 < ((0 : Int) - 1001).natAbs ∧ (testRes 0 0 true).march = [] ∧
    (lane (testS false) .l1).selfTest.lateK = false ∧ (lane (testS false) .l1).selfTest.lateM = false ∧
    (lane (testS true) .l1).selfTest.lateM = true ∧
    (joinS (aJoin 3)).grp.join = some (aJoin 3) ∧ (aJoin 3).joiner = .l3 ∧ (aJoin 3).step = 3 :=
  ⟨rfl, rfl, rfl, rfl, rfl, rfl, by decide, by decide, by decide, by decide, by decide, rfl, rfl, rfl, rfl, rfl, rfl, rfl⟩

/-! ## Comparison, joins, reverts -/

def aContrib (st : SeatId) (sig : DWord) : Contribution := { cyc := 5, ctx := 1, seat := st, sig := sig, words := [(1, 7)], code := 0 }
/-- A contribution with its right code: the code is none of the bytes it covers. -/
theorem test_contrib_code (c : Cfg) (cb : Contribution) : ∃ x, x = contribCode c { cb with code := x } :=
  have e (x : Word) : contribCode c { cb with code := x } = contribCode c cb := rfl
  ⟨contribCode c cb, (e _).symm⟩
/-- L0 with its own contribution and those it holds of the other seats. -/
def withContribs (own : List Contribution) (got : List Contribution) (L : Lane) : Lane := { L with own := own, contribs := got }
def cmpS (a b : DWord) : State :=
  fullS id (withContribs [aContrib .s1 1] [aContrib .s2 a, aContrib .s3 b]) id
def cmpPair (a : DWord) : State := pairS id (withContribs [aContrib .s1 1] [aContrib .s2 a])
theorem test_witness_contribution : seatOfLane run .l0 = some .s1 ∧ LaneId.l0 ≠ .l1 ∧
    seatLane run.grp.seats (aContrib .s2 1).seat = some .l1 ∧ (lane run .l0).disregard.contains .l1 = false ∧
    linked run .l0 .l1 = true ∧ mapOf run 1 5 = run.grp.seats ∧ (lane run .l0).fenced = false ∧ run.grp.join = none ∧
    InStep (lane run .l0) ∧ InStep (lane run .l1) ∧
    (∃ x, x = contribCode (lane run .l0).cfg { aContrib .s2 1 with code := x }) :=
  ⟨rfl, by decide, rfl, rfl, by decide, by decide, rfl, rfl, by unfold InStep; decide, by unfold InStep; decide, test_contrib_code _ _⟩
theorem test_witness_retry : relayedPair run run.grp.seats .s1 .s3 = true ∧ seatLane run.grp.seats .s3 = some .l2 ∧
    holdsContrib (lane run .l0) 1 5 .s3 = none ∧ straitFailed run.grp .l0 .l2 = false ∧
    (lane run .l0).resend.contains (1, 5, .s3) = false ∧
    ((lane (fullS id (withContribs [aContrib .s3 1] []) id) .l0).own.any fun c => c.ctx == 1 && c.cyc == 5) = true :=
  ⟨by decide, rfl, rfl, by decide, rfl, by decide⟩
theorem test_witness_comparison :
    ((lane (cmpS 1 1) .l0).own.find? fun x => x.ctx == 1 && x.cyc == 5) = some (aContrib .s1 1) ∧
    (aContrib .s1 1).seat = .s1 ∧ Runs (cmpS 1 1) ∧ (∀ o, (lane (cmpS 1 1) o).dbg.halted = false) ∧
    (∀ x ∈ otherSeats (cmpS 1 1).grp.seats .s1, x ∈ agreeing (lane (cmpS 1 1) .l0) (cmpS 1 1).grp.seats (aContrib .s1 1)) ∧
    otherSeats (cmpS 1 1).grp.seats .s1 ≠ [] ∧ (cmpS 2 2).grp.gst ≠ .degraded ∧
    agreeing (lane (cmpS 2 2) .l0) (cmpS 2 2).grp.seats (aContrib .s1 1) = [] ∧ (cmpPair 2).grp.gst = .degraded ∧
    (∀ x, takesPart (cmpS 2 2) (cmpS 2 2).grp.seats x = true) ∧ (seatedLanes (cmpS 2 2).grp.seats).length ≠ 2 ∧
    agreeing (lane (cmpS 1 2) .l0) (cmpS 1 2).grp.seats (aContrib .s1 1) = [.s2] ∧
    (seatLane (cmpS 1 2).grp.seats .s3).bind (seatOfLane (cmpS 1 2)) = some .s3 ∧ mapOf (cmpS 1 2) 1 5 = (cmpS 1 2).grp.seats ∧
    (∃ x ∈ otherSeats (cmpPair 2).grp.seats .s1,
      x ∉ agreeing (lane (cmpPair 2) .l0) (cmpPair 2).grp.seats (aContrib .s1 1)) :=
  ⟨by decide +kernel, rfl, ⟨by decide, by decide⟩, fun o => by cases o <;> rfl, by decide +kernel, by decide, by decide,
    by decide +kernel, rfl, fun x => by cases x <;> decide, by decide, by decide +kernel, by decide, by decide, ⟨.s2, by decide, by decide +kernel⟩⟩
/-- L0 has a comparator to prove and no background work before it. -/
def proveS : State :=
  fullS (fun g => { g with scrub := { g.scrub with nextAt := 2000000 } })
    (fun L => { L with prove := true, bgDone := [(0, 1000000)] }) id
theorem test_witness_accusation : isSeated run .l1 = true ∧ (lane run .l0).prove = false ∧
    (lane proveS .l0).prove = true ∧
    bgTurn proveS .l0 3 = true ∧ straitFailed run.grp .l0 .l1 = false ∧ (0 : Word) = ((lane run .l0).cfg.knownAns[seatNum .s1 - 1]?).getD 0 ∧
    run.grp.straitSpare.contains (straitOf .l0 .l1) = false ∧
    (fullS (fun g => { g with straitSpare := [straitOf .l0 .l1] }) id id).grp.straitSpare.contains (straitOf .l0 .l1) = true :=
  ⟨by decide, rfl, rfl, by decide, by decide, by decide, rfl, by decide⟩

def copyJoin (step : Nat) : Join :=
  { kind := .fault, joiner := .l3, step := step, srcLo := some .l0, srcHi := some .l1, unsent := [0x200, 0x201],
    staged := [0x201] }
theorem test_witness_joins : joinSources (joinS (aJoin 4)) (aJoin 4) = some (.l0, .l1) ∧
    (joinS (copyJoin 6)).grp.join = some (copyJoin 6) ∧ 0x201 ∈ (copyJoin 6).staged ∧
    srcOf (copyJoin 6) 0x201 = some .l0 ∧ (lane (joinS (copyJoin 6)) .l0).wait = none ∧
    (∀ o, o ∈ (copyJoin 6).srcLo ∨ o ∈ (copyJoin 6).srcHi → (lane (joinS (copyJoin 6)) o).wait = none) ∧
    (copyJoin 7).srcLo = some .l0 ∧ memWf (lane (joinS (copyJoin 7)) .l0).mem = true ∧ (copyJoin 7).step ≤ 7 ∧
    7 < (copyJoin 8).step :=
  ⟨by decide, rfl, by decide, by decide, rfl, fun o _ => by cases o <;> rfl, rfl, by decide, by decide, by decide⟩

def backS (before : SeatMap) : State :=
  fullS (fun g => { g with holdoff := [.l3], before := [(3, before)], standIn := [(3, .l2)] }) id id
def turnS : State := fullS (fun g => { g with settings := { g.settings with rotDays := 0 } }) id id
theorem test_witness_moves : (backS ⟨some .l0, some .l1, some .l3⟩).grp.holdoff.contains .l3 = true ∧
    revertSeat (backS ⟨some .l0, some .l1, some .l3⟩) .l3 = some .l2 ∧
    mayJoinFor (backS ⟨some .l0, some .l1, some .l3⟩) .l3 (some .l2) = true ∧
    revertSeat (backS ⟨some .l0, some .l2, some .l3⟩) .l3 = none ∧
    (run.grp.join = none ∧ run.mod.op = .service ∧ activationSoon run = false ∧ anyHalted run = false ∧ run.grp.gst = .full) ∧
    rotationIsDue turnS = true ∧ turnS.grp.holdoff = [] ∧ turnS.grp.revertDue = none ∧ mayJoinFor turnS .l3 (some .l0) = true ∧
    rotationLane turnS = some .l0 ∧ isSeated turnS .l0 = true ∧ rotationIsDue run = false ∧
    rotationOk (fullS (fun g => { g with holdoff := [.l3], settings := { g.settings with rotDays := 0 } }) id id) = false ∧
    rotationIsDue (fullS (fun g => { g with holdoff := [.l3], settings := { g.settings with rotDays := 0 } }) id id) = true :=
  ⟨rfl, by decide, by decide, by decide, ⟨rfl, rfl, by decide, by decide, rfl⟩, by decide, rfl, rfl, by decide, by decide,
    by decide, by decide, by decide, by decide⟩

/-! ## Time bases, scrub, flash, power states -/

def tickS (f : TimeBase → TimeBase) : State := fullS id (fun L => { L with tb := f L.tb }) id
def heardTb (a b : Nat) (x : TimeBase) : TimeBase :=
  { x with src := some (.hub .h0), meas0 := 10000000, heard := [(1, a), (2, b)] }
def busHub : Hub := { fwRunning := true, lo := { node := .integrated } }
def busRun : State := { run with hubs := ⟨busHub, {}⟩, grp := { run.grp with refIn := some .h0 } }
/-- L0 that agrees with L1 and not with L2. -/
def oddTime : State := tickS (heardTb 10000000 0)
theorem test_witness_time : busRun.grp.refIn = some .h0 ∧ busRun.grp.refMix = false ∧ busRun.grp.refIn ≠ some .h1 ∧
    run.grp.refIn = none ∧ refLane run = some .l0 ∧ LaneId.l1 ≠ .l0 ∧ bgTurn run .l0 0 = true ∧
    (fbLane fbTask).cur.isSome = true ∧ linked run .l0 .l1 = true ∧
    (seated oddTime).filter (fun o => o != .l0) = [.l1, .l2] ∧ timeGood oddTime .l0 10000000 = [.l1] ∧
    ownMeas oddTime .l0 = some 10000000 ∧ seatOfLane oddTime .l2 = some .s3 ∧ oddTime.grp.gst ≠ .degraded ∧
    3 ≤ (lane (tickS fun x => { x with offRun := 3 }) .l0).tb.offRun ∧ (lane run .l0).tb.offRun < 3 ∧
    ownMeas (tickS (heardTb 10000000 10000000)) .l0 = some 10000000 ∧ isSeated (tickS (heardTb 0 0)) .l0 = true ∧
    (∀ o ∈ seated (tickS (heardTb 10004000 9996000)), o ≠ .l0 →
      o ∈ timeGood (tickS (heardTb 10004000 9996000)) .l0 10000000) ∧
    (∃ o ∈ seated (tickS (heardTb 0 0)), o ≠ .l0) ∧ timeGood (tickS (heardTb 9995999 10004001)) .l0 10000000 = [] ∧
    (∃ o ∈ seated (pairS id fun L => { L with tb := heardTb 0 0 L.tb }),
      o ≠ .l0 ∧ o ∉ timeGood (pairS id fun L => { L with tb := heardTb 0 0 L.tb }) .l0 10000000) ∧
    ownMeas (pairS id fun L => { L with tb := heardTb 0 0 L.tb }) .l0 = some 10000000 ∧
    ((1000 : Int) - 0).natAbs ≤ 1000 ∧ 1000 < ((0 : Int) - 1001).natAbs ∧ 1000 < ((1001 : Int) - (-1001)).natAbs ∧
    (lane run .l0).tb.failed0 = false ∧ (lane run .l0).tb.failed1 = false ∧ 200000 ≤ 200000 ∧ 199999 < 200000 :=
  ⟨rfl, rfl, by decide, rfl, by decide, by decide, by decide, rfl, by decide, by decide, by decide, by decide, by decide,
    by decide, by decide, by decide, by decide, by decide, by decide, ⟨.l1, by decide, by decide⟩, by decide,
    ⟨.l1, by decide, by decide, by decide⟩, by decide, by decide, by decide, by decide, rfl, rfl, by decide, by decide⟩

def scrubLane (L : Lane) : Lane := { L with scrub := { region := some 3, repair := some (.l1, [(0x30000, 1)]), marked := [0xC001] } }
/-- Every lane has compensated its time base just now; the scrub's next step is due or not. -/
def calmS (next : Nat) : State :=
  let f (L : Lane) : Lane := { L with bgDone := [(0, 1000000), (4, 1000000)] }
  { run with grp := { run.grp with scrub := { nextAt := next } },
             lanes := ⟨f run.lanes.l0, f run.lanes.l1, f run.lanes.l2, f run.lanes.l3⟩ }
theorem test_witness_background : (∀ o ∈ seated (calmS 1000000), bgTurn (calmS 1000000) o 2 = true) ∧
    (calmS 1000000).grp.scrub.nextAt ≤ (calmS 1000000).grp.groupTime.toNat ∧ Runs (calmS 1000000) ∧
    (∃ o ∈ seated run, bgTurn run o 2 = false) ∧ bgTurn (calmS 2000000) .l0 4 = true ∧ bgTurn run .l0 4 = false :=
  ⟨by decide, by decide, ⟨by decide, by decide⟩, ⟨.l0, by decide, by decide⟩, by decide, by decide⟩
theorem test_witness_scrub : run.grp.firstBoundary = true ∧ run.grp.scrub.active = false ∧
    run.grp.scrub.nextAt ≤ run.grp.groupTime.toNat ∧ run.grp.join = none ∧ run.grp.scrub.region < 112 ∧
    (∀ o, memWf (lane run o).mem = true) ∧
    ((lane (fullS id scrubLane id) .l0).scrub.repair = some (.l1, [(0x30000, 1)]) ∧ (lane (fullS id scrubLane id) .l1).fenced = false) ∧
    (lane (fullS id scrubLane id) .l0).scrub.region = some 3 ∧
    bankHashOk (lane run .l0).nv.bankA = true ∧ bankHashOk (lane run .l0).nv.bankB = true ∧ 511 < 512 ∧
    (lane (fullS id (fun L => { L with nv := { spareUsed := 95 } }) id) .l0).nv.spareUsed < 96 ∧
    96 ≤ (lane (fullS id (fun L => { L with nv := { spareUsed := 96 } }) id) .l0).nv.spareUsed :=
  ⟨rfl, rfl, by decide, rfl, by decide, fun o => by cases o <;> rfl, ⟨rfl, rfl⟩, rfl, rfl, rfl, by decide, by decide, by decide⟩

def stepS (n calm : Nat) : State := fullS id (fun L => { L with tlmStep := n, tlmCalm := calm }) id
def busyTag : TagRec := { tag := 1, opcode := 0x0101 }
theorem test_witness_power_states : mayRest run .l0 = true ∧ InStep (lane run .l0) ∧ (lane run .l0).fenced = false ∧
    (lane run .l0).dbg.halted = false ∧ ¬ InStep (lane (fullS id (fun L => { L with sigM := 1 }) id) .l0) ∧
    mayRest (fullS id (fun L => { L with sigM := 1 }) id) .l0 = true ∧ 11 < 12 ∧ 12 ≤ 12 ∧ 81 < 82 ∧ 82 ≤ 82 ∧
    blockIdle run .h0 .firmware = true ∧ blockIdle (fullS (fun g => { g with tags0 := [busyTag] }) id id) .h0 .firmware = false ∧
    [1, 2, 5, 10].map (fun n => (lane (stepS n 60) .l0).tlmStep) = [1, 2, 5, 10] ∧ 60 ≤ (lane (stepS 2 60) .l0).tlmCalm ∧
    1 < (lane (stepS 2 60) .l0).tlmStep ∧ (lane (stepS 2 59) .l0).tlmCalm < 60 :=
  ⟨by decide, by unfold InStep; decide, rfl, rfl, by unfold InStep; decide, by decide, by decide, by decide, by decide, by decide, by decide, by decide, by decide, by decide, by decide, by decide⟩

def valuzS (c : ValuzChan) : State :=
  { fullS id (fun L => { L with valuz := L.valuz.setIfInBounds 0 c }) id with
    hubs := ⟨{ fwRunning := true, pcieUp := true, valuz := (Vector.replicate 4 {}).setIfInBounds 3 c }, {}⟩ }
theorem test_witness_valuz : (lane (valuzS { st := .busy }) .l0).valuz.toList[0]? = some { st := .busy } ∧
    (ValuzChan.mk 0 0 64 0 false 0 false 0 0 .idle 0 0 0).st ≠ .busy ∧
    laneScanOk (lane (valuzS { start := 0x7FFFC0, length := 64 }) .l0) 0 none = true ∧
    laneScanOk (lane (valuzS { start := 0x7FFFC1, length := 64 }) .l0) 0 none = false ∧
    ¬ ((0 : Word) ≠ 0 ∧ (0 : Word).toNat ≤ 0x800000) ∧ laneScanOk (lane (valuzS {}) .l0) 0 none = true ∧
    ((0x800000 : Word) ≠ 0 ∧ (0x800000 : Word).toNat ≤ 0x800000) ∧
    laneScanOk (lane (valuzS { length := 0x800000, fold := 3 }) .l0) 0 none = true ∧
    ((hub (valuzS { st := .busy }) .h0).valuz.toList[3]? = some { st := .busy } ∧
      hubChanUp (hub (valuzS { st := .busy }) .h0) 3 = true ∧ hubChanUp (hub (valuzS {}) .h1) 3 = false) :=
  ⟨by decide, by decide, by decide, by decide, by decide, by decide, by decide, by decide, by decide⟩

def wrapCtr (sel : Word) : PerfCtr := { value := BitVec.allOnes 48, sel := sel }
def ctrS (sel : Word) (n : Nat) : State :=
  { fullS id (fun L => { L with ctrs := { L.ctrs with ctr := L.ctrs.ctr.setIfInBounds 15 (wrapCtr sel), samples := n } }) id with
    hubs := ⟨{ ctrs := (Vector.replicate 8 {}).setIfInBounds 7 (wrapCtr sel) }, {}⟩ }
theorem test_witness_overflow : (lane (ctrS 0x400000 0) .l0).st ≠ .retired ∧ (lane (ctrS 0x400000 0) .l0).ctrs.owed = [] ∧
    (lane (ctrS 0x400000 0) .l0).ctrs.ctr.toList[15]? = some (wrapCtr 0x400000) ∧
    (wrapCtr 0x400000).sel.getLsbD 22 = true ∧ (wrapCtr 0x400000).sel.getLsbD 23 = false ∧
    (wrapCtr 0x400000).sel.getLsbD 24 = false ∧ (wrapCtr 0x1400000).sel.getLsbD 24 = true ∧
    (lane (ctrS 0x1400000 999) .l0).ctrs.samples < 1000 ∧ 1000 ≤ (lane (ctrS 0x1400000 1000) .l0).ctrs.samples ∧
    (hub (ctrS 0x10000 0) .h0).ctrOwed = [] ∧ (hub (ctrS 0x10000 0) .h0).ctrs.toList[7]? = some (wrapCtr 0x10000) ∧
    (wrapCtr 0x10000).sel.getLsbD 16 = true ∧ (wrapCtr 0x10000).sel.getLsbD 17 = false ∧
    (wrapCtr 0x10000).sel.getLsbD 18 = false :=
  ⟨by decide, rfl, by decide, by decide, by decide, by decide, by decide, by decide, by decide, rfl, by decide, by decide,
    by decide, by decide⟩

def tapS (op : OpState) (halted : Bool) (bps : List Word) : State :=
  { fullS id (fun L => { L with unlocked := true, cur := some fbTask, dbg := { halted := halted, bps := bps } }) id with
    mod := { pwrgd := true, op := op } }
theorem test_witness_tap : ((tapS .bench true []).mod.op = .bench ∧ (lane (tapS .bench true []) .l0).unlocked = true) ∧
    ¬ ((tapS .service true []).mod.op = .bench ∧ (lane (tapS .service true []) .l0).unlocked = true) ∧
    (lane (tapS .bench true []) .l0).dbg.halted = true ∧ (lane (tapS .bench false []) .l0).dbg.halted = false ∧
    (lane (tapS .bench true []) .l0).cur = some fbTask ∧ (0x7FFFFC : Word).toNat + 4 ≤ 0x800000 ∧
    (tapS .bench true []).grp.join = none ∧ (lane (tapS .bench false [1, 2, 3]) .l0).dbg.bps.length < 4 ∧
    (lane (tapS .bench false [1, 2, 3]) .l0).dbg.bps.contains 0x20000 = false ∧
    (lane (tapS .bench false [0x20000]) .l0).dbg.bps.contains fbTask.pc = true ∧
    InStep (lane (tapS .bench false []) .l0) ∧ dqOps (lane (tapS .bench true []) .l0).dq < 32 ∧
    ¬ InStep { lane (tapS .bench false []) .l0 with sigM := 1 } :=
  ⟨⟨rfl, rfl⟩, by decide, rfl, rfl, rfl, by decide, rfl, by decide, by decide, by decide, by unfold InStep; decide, by decide, by unfold InStep; decide⟩

/-! ## Rounds, updates, the host bridge -/

def roundCfg : Cfg := { fbCfg with marks := [{ ctx := 2, mark := 0, hasTask := true, offUs := 10000 }],
                                   ctxs := [vitalCtx, { plainCtx with marks := [(1, 0)] }] }
def markCtx : CtxCfg := { plainCtx with marks := [(1, 0)] }
def withRun (n : Nat) (c : CtxRun) (L : Lane) : Lane := { L with ctxs := [(n, c)], cfg := roundCfg }
/-- A round in which contexts 1 (period 2 rounds) and 2 (period 4 rounds) run; L0's context n stands as given. -/
def cycS (r n : Nat) (c : CtxRun) : State :=
  fullS (fun g => { g with cfg := roundCfg, round := BitVec.ofNat 64 r }) (withRun n c) id
theorem test_witness_rounds : run.grp.roundFixed = true ∧ run.grp.firstBoundary = true ∧
    (fullS (fun g => { g with firstBoundary := false }) id id).grp.firstBoundary = false ∧
    (fullS (fun g => { g with roundFixed := false }) id id).grp.roundFixed = false := ⟨rfl, rfl, rfl, rfl⟩
theorem test_witness_output_points : Runs (cycS 101 1 {}) ∧ ctxCfg? (cycS 101 1 {}).grp.cfg 1 = some vitalCtx ∧
    startsAt vitalCtx ((cycS 101 1 {}).grp.round.toNat + 1) = true ∧
    vitalCtx.offset + periodRounds vitalCtx.period ≤ (cycS 101 1 {}).grp.round.toNat + 1 ∧ .l0 ∈ runLanes (cycS 101 1 {}) ∧
    .l3 ∉ runLanes (cycS 101 1 {}) ∧
    (ctxRun (lane (cycS 101 1 { st := .running, owes := true }) .l0) 1) = { st := .running, owes := true } ∧
    (ctxRun (lane (cycS 101 1 { st := .running, owes := true, busy := true, lateRun := 1 }) .l0) 1).busy = true ∧
    vitalCtx.vital = true ∧ 1 ≤ 1 ∧ plainCtx.vital = false ∧ (∀ l, InStep (lane (cycS 101 1 {}) l)) ∧
    (ctxRun (lane (cycS 101 1 { st := .stopped }) .l0) 1).st ≠ .running :=
  ⟨⟨by decide, by decide⟩, by decide, by decide, by decide, by decide, by decide, by decide, by decide, rfl, by decide, rfl,
    fun l => by cases l <;> (unfold InStep; decide), by decide⟩
theorem test_witness_builds : run.mod.op ≠ .startUp ∧ seatOfLane run .l0 = some .s1 ∧ (lane run .l0).hubWords = true ∧
    (lane run .l0).dbg.halted = false ∧ (lane run .l0).fenced = false ∧ (∀ l, InStep (lane run l)) :=
  ⟨by decide, rfl, rfl, rfl, rfl, fun l => by cases l <;> (unfold InStep; decide)⟩
/-- A mark's instance of type 1 at 0x201000 and the code address of type 1. -/
def markMem : Mem := memPutWord (memPutWord [] 0x4110 0x20000) 0x201000 0x00100001
def markRun : Task := { fbTask with ctx := 2, mark := some 0 }
theorem test_witness_marks : ctxCfg? (cycS 101 2 {}).grp.cfg 2 = some markCtx ∧
    (cycS 101 2 {}).grp.cfg.marks.find? (fun y => y.ctx == 2 && y.mark == 0) =
      some { ctx := 2, mark := 0, hasTask := true, offUs := 10000 } ∧
    markDue (cycS 101 2 {}) markCtx { ctx := 2, mark := 0, hasTask := true, offUs := 10000 } = true ∧ markCtx.vital = false ∧
    (ctxRun (lane (cycS 101 2 { st := .running }) .l0) 2).st = .running ∧
    markBusy (lane (cycS 101 2 { st := .running }) .l0) 2 0 = false ∧ markBusy (fbLane markRun) 2 0 = true ∧
    markCtx.marks[0]? = some (1, 0) ∧ (lane (cycS 101 2 {}) .l0).wait = none ∧
    instCheck (lane (cycS 101 2 {}) .l0) 2 0x201000 1 = .error 7 ∧
    instCheck { lane (cycS 101 2 {}) .l0 with mem := markMem } 2 0x201000 1 = .ok 0x20000 ∧
    (run.grp.gst ≠ .safe ∧ { run.grp with gst := .safe }.gst = .safe) :=
  ⟨by decide, by decide, by decide, rfl, by decide, by decide, by decide, rfl, rfl, rfl, rfl, ⟨by decide, rfl⟩⟩

/-- Content of a bank: a code section of 2 MiB with MAGIC, format 1 and safety-major version 3 (R187, R466). -/
def newData : Mem := memPutBytes (memPutWord (memPutWord (memPutWord [] 0 1) 4 0x80) 8 0x200000) 0x80 [0x42, 0x46, 0x58, 0x4E, 1, 0, 3]
def newBank : Bank := { len := 0x200080, data := newData }
def newHdr : OcHdr :=
  { toLen := 0x200080, toHash := sha256Num (memBytes newData 0 0x200080), safety := 3,
    toHat := hatOf (bankImage newBank).1 (bankCfgBase newData) (bankCfgLen newData) }
def updLane (L : Lane) : Lane :=
  { L with mem := (bankImage newBank).1, nv := { bankB := newBank, sess := some { hdr := newHdr } } }
def verifying : Session := { st := .verifying, hdr := newHdr, vTag := some (.h0, 9) }
def updS (L : Lane → Lane) : State :=
  { mod := { pwrgd := true, op := .service }, grp := { fullGrp with session := some verifying },
    lanes := ⟨L (updLane (fitLane .seated)), updLane (fitLane .seated), updLane (fitLane .seated), updLane (fitLane .sparePaired)⟩ }
theorem test_list_same (m d : Mem) : listSize m m d = bankCfgLen d + freshBytes d := by
  have e : (List.range 0x80000).filter (fun k => memWord m (4 * k) != memWord m (4 * k)) = [] :=
    List.filter_eq_nil_iff.mpr (by simp)
  rw [listSize, e, List.length_nil]; omega
theorem test_verdict (L : Lane) (hb : inactiveBank L.nv = newBank) (hm : L.mem = (bankImage newBank).1) :
    bankVerdict L newHdr = 0 := by
  have e : bankDirOk newBank.data newHdr.toLen = true := by decide +kernel
  have i : imageStarts (bankImage newBank).2 (bankImage newBank).1 newHdr.safety = true := by decide +kernel
  have n : bankCfgLen newBank.data + freshBytes newBank.data ≤ 393216 := by decide +kernel
  simp only [bankVerdict, hb, hm]
  rw [show sha256Num (memBytes newBank.data 0 newHdr.toLen) = newHdr.toHash from rfl,
    show hatOf (bankImage newBank).1 (bankCfgBase newBank.data) (bankCfgLen newBank.data) = newHdr.toHat from rfl, e, i,
    test_list_same]
  simp only [bne_self_eq_false, Bool.not_true, Bool.false_eq_true, if_false]
  exact if_neg (Nat.not_lt.mpr n)
theorem test_witness_verified (k : LaneId) : laneVerdict (lane (updS id) k) verifying.hdr = 0 := by
  have h (L : Lane) (hr : L.nv.retire = 0) (hm : L.upd.missed = false) : laneVerdict L newHdr = bankVerdict L newHdr := by
    simp [laneVerdict, hr, hm]
  cases k <;> exact (h _ rfl rfl).trans (test_verdict _ rfl rfl)
/-- A verdict other than 0, 1 and 6: a directory that holds a section of a reserved kind. -/
def oddBank : Bank := { len := 16, data := memPutWord [] 0 6 }
def oddHdr : OcHdr := { toLen := 16, toHash := sha256Num (memBytes oddBank.data 0 16) }
theorem test_witness_verdict_2 : laneVerdict { nv := { bankB := oddBank } } oddHdr = 2 := by
  have e : bankDirOk oddBank.data oddHdr.toLen = false := by decide +kernel
  simp only [laneVerdict, bankVerdict, show inactiveBank { bankB := oddBank : LaneNv } = oddBank from rfl]
  rw [show sha256Num (memBytes oddBank.data 0 oddHdr.toLen) = oddHdr.toHash from rfl, e]
  simp
def setWrite : PendWrite := { what := .settings, hub := .h0, tag := 1 }
def fwHubs (a b : Hub) : State := { run with hubs := ⟨a, b⟩ }
def newFw : Hub := { fwRunning := true, fwNew := some 2 }
theorem test_witness_update_events : (lane run .l0).nv.retire = 0 ∧ (lane run .l0).selfTest.running = false ∧
    (lane (fullS id (fun L => { L with nv := { staged := [[1]] } }) id) .l0).nv.staged = [1] :: [] ∧
    run.grp.session = none ∧ (lane (fullS id id fun L => { L with imgOk := false }) .l3).imgOk = false ∧
    isSeated run .l3 = false ∧ copyFrom (fullS id id fun L => { L with imgOk := false }) .l3 .l0 = true ∧
    (updS id).grp.session = some verifying ∧ verifying.st = .verifying ∧ verifying.vTag = some (.h0, 9) ∧
    (∀ k, applicationDone (lane (updS id) k) = true) ∧ (lane run .l0).journal = true ∧
    (lane (fullS id (fun L => { L with writes := [setWrite] }) id) .l0).writes.find? (fun y => y.what == .settings) =
      some setWrite ∧ setWrite.what ≠ .confirmed ∧
    (lane (fullS id (fun L => { L with journal := false }) id) .l0).journal = false ∧
    (hub (fwHubs {} newFw) .h1).fwNew.isSome = true ∧ (hub (fwHubs {} newFw) .h1).fwRunning = true ∧
    (hub (fwHubs newFw { fwRunning := true, running := true }) .h1).fwNew = none ∧
    (hub (fwHubs newFw {}) .h1).running = false :=
  ⟨rfl, rfl, rfl, rfl, rfl, by decide, by decide, rfl, rfl, rfl, fun k => by cases k <;> rfl, rfl, rfl, by decide, rfl, rfl,
    rfl, rfl, rfl⟩

def msgOf (s : State) : StatusMsg := statusMsg s .l1
theorem test_witness_messages : (hub busRun .h0).fwRunning = true ∧ (backers busRun .l0).contains .l1 = true :=
  ⟨rfl, by decide⟩

def liveHub : Hub := { fwRunning := true, pcieUp := true, enable := true, running := true }
def hubsS (a b : Hub) : State := fwHubs a b
theorem test_witness_hub_loss : (hub (hubsS liveHub liveHub) .h0).lost = false ∧ seated run ≠ [] ∧
    (hub (hubsS liveHub liveHub) .h0).linkGone = false ∧ (hub (hubsS liveHub liveHub) .h1).fwRunning = true ∧
    (hub (hubsS liveHub liveHub) .h1).lost = false ∧
    (hub (hubsS { liveHub with adoptAt := some (1, 2, 3) } {}) .h0).adoptAt = some (1, 2, 3) ∧
    (hub run .h0).vecs[2].mask = true ∧ ringsOn liveHub = true ∧ liveHub.pendRd = [] ∧
    ((Vector.replicate 16 ({ hold := true } : Vec)).setIfInBounds 15 { hold := true, again := true, mask := false })[15].again = true ∧
    (Vector.replicate 16 ({ mask := false } : Vec))[2].mask = false ∧ (hub run .h0).vecs[15].hold = false :=
  ⟨rfl, by decide, rfl, rfl, rfl, rfl, by decide, rfl, rfl, by decide, by decide, by decide⟩
def dropSev : Hub := { liveHub with sev := { drops := 3 } }
def aHandle : Handle := { word := 0x20000005, hub := .h1, server := .h0, obj := .eventCh 0 0, held := true }
def aStream : Stream := { handle := 0x40000000, source := 0, base := 0, n := 4, running := true, latest := [⟨1, 0, 0, []⟩] }
theorem test_witness_registers : (hub run .h0).fwRunning = false ∧ liveHub.fwRunning = true ∧ liveHub.pcieUp = true ∧
    dropSev.sev.drops ≠ 0 ∧ ringsOn dropSev = true ∧ ringRoom (ringConsume dropSev.sev 0) 1 = true ∧
    tblGet [(5, ({} : Ring))] 5 = some {} ∧ handleType aHandle.word = 2 ∧ handleIdx aHandle.word = 5 ∧
    ringsValid { liveHub with enable := false, running := false } = true ∧
    ringsValid { liveHub with cmdBase := 1 } = false ∧ liveHub.enable = true ∧ liveHub.running = true ∧
    ({ liveHub with pendRd := [⟨1, 0, 0x0802, 0⟩] } : Hub).pendRd ≠ [] ∧
    tblGet [(15, aStream)] 15 = some aStream ∧ hubServes liveHub = true :=
  ⟨rfl, rfl, rfl, by decide, rfl, by decide, rfl, by decide, by decide, by decide, by decide, rfl, rfl, by decide, by decide,
    rfl⟩

/-! ## Brodxo -/

def syncSlot : SlotCfg := { start := 0, kind := 1, len := 200, owner := 0xF002 }
def downSlot : SlotCfg := { start := 300, kind := 2, len := 800, owner := 0 }
def upSlot : SlotCfg := { start := 1200, kind := 3, len := 200, owner := 1 }
def claimSlot : SlotCfg := { start := 1500, kind := 5, len := 200, owner := 0 }
def busPlan : Cfg := { fbCfg with plan1 := [syncSlot, downSlot, upSlot, claimSlot], vitalIds := [(1, 0, 1)] }
/-- H0's lower port as given, in a group whose plan has one slot of each kind and whose owner list names nobody here. -/
def portS (P : Port) : State :=
  { fullS (fun g => { g with cfg := busPlan, grants := [{ seg := 1, slot := 0, addr := 7, len := 8, since := 0, silent := 2000 }] })
      (fun L => { L with cfg := busPlan }) id with
    hubs := ⟨{ fwRunning := true, lo := P }, {}⟩ }
def upPort (n : NodeSt) : Port := { linkUp := true, node := n, round := 100, known := true }
def aHead (ty sender slot : Nat) : FrameHead :=
  { len := 100, fcsOk := true, dest := 0x034E58000001, etherType := 0x88B5, version := 1, ftype := ty, segment := 1, flags := 0,
    sender := sender, seq := 1, round := 100, slot := slot, devNs := 1000 }
def coldFrame (r : DWord) (at_ : Int) (c : DWord) : ColdStartFrame :=
  { head := aHead 2 0xF002 0, roundFull := r, planId := 0, attempt := 1, collisions := 0, code := c, sentNs := 0, arriveNs := at_ }
def syncFrame (c : DWord) : SyncFrame :=
  { head := aHead 1 0xF002 0, roundFull := 100, planId := 0, state := 3, values := 0, lastCorr := 0, rateCorr := 0, code := c,
    sentNs := 0, arriveNs := 0, guardTen := 0 }
/-- A COLD_START with the right code passes its checks in any port that is not INTEGRATED. -/
def ColdPasses (P : Port) (f : ColdStartFrame) : Prop :=
  lenOk f.head = true ∧ syncChecks (portS P) .p0 f.head 2 (f.code == syncCode (busCfg (portS P)) 0x31 f.head (coldBody f))
    (f.planId == (busCfg (portS P)).planId) = none
def SyncPasses (P : Port) (f : SyncFrame) : Prop :=
  lenOk f.head = true ∧ syncChecks (portS P) .p0 f.head 1 (f.code == syncCode (busCfg (portS P)) 0x30 f.head (syncBody f))
    (f.planId == (busCfg (portS P)).planId) = none
theorem test_checks (s : State) (p : PortId) (h : FrameHead) (y : Nat) (a b : DWord) (k : DWord) (hab : a = b)
    (h0 : syncChecks s p h y true (k == k) = none) : syncChecks s p h y (a == b) (k == k) = none := by
  subst hab; simpa using h0
theorem test_cold_code (P : Port) (r : DWord) (at_ : Int) (c : DWord)
    (h : c = syncCode (busCfg (portS P)) 0x31 (aHead 2 0xF002 0) (coldBody (coldFrame r at_ 0))) :
    c = syncCode (busCfg (portS P)) 0x31 (coldFrame r at_ c).head (coldBody (coldFrame r at_ c)) := h
theorem test_sync_code (P : Port) (c : DWord)
    (h : c = syncCode (busCfg (portS P)) 0x30 (aHead 1 0xF002 0) (syncBody (syncFrame 0))) :
    c = syncCode (busCfg (portS P)) 0x30 (syncFrame c).head (syncBody (syncFrame c)) := h
theorem test_cold (P : Port) (r : DWord) (at_ : Int)
    (h : syncChecks (portS P) .p0 (aHead 2 0xF002 0) 2 true ((0 : DWord) == 0) = none) :
    ∃ f, ColdPasses P f ∧ f.roundFull = r ∧ f.arriveNs = at_ ∧ f.sentNs = 0 ∧ f.head = aHead 2 0xF002 0 := by
  obtain ⟨c, hc⟩ : ∃ c, c = syncCode (busCfg (portS P)) 0x31 (aHead 2 0xF002 0) (coldBody (coldFrame r at_ 0)) := ⟨_, rfl⟩
  exact ⟨coldFrame r at_ c, ⟨rfl, test_checks (portS P) .p0 (aHead 2 0xF002 0) 2 c _ 0 (test_cold_code P r at_ c hc) h⟩,
    rfl, rfl, rfl, rfl⟩
theorem test_sync (P : Port) (h : syncChecks (portS P) .p0 (aHead 1 0xF002 0) 1 true ((0 : DWord) == 0) = none) :
    ∃ f, SyncPasses P f ∧ f.head = aHead 1 0xF002 0 := by
  obtain ⟨c, hc⟩ : ∃ c, c = syncCode (busCfg (portS P)) 0x30 (aHead 1 0xF002 0) (syncBody (syncFrame 0)) := ⟨_, rfl⟩
  exact ⟨syncFrame c, ⟨rfl, test_checks (portS P) .p0 (aHead 1 0xF002 0) 1 c _ 0 (test_sync_code P c hc) h⟩, rfl⟩
/-- At the instant of its next COLD_START a node has none to wait for; 1 ns before it, that one is committed. -/
theorem test_committed (s : State) (p : PortId) (P : Port) (t : Int) (h : nextCold s p P = some t) :
    committed s p P t = none ∧ committed s p P (t - 1) = some t := by
  simp only [committed, h, Option.filter]; constructor
  · simp
  · rw [if_pos]; simp; omega
def listenColds (cs : List (Nat × Int)) : Port := { upPort .listen with known := false, colds := cs }
theorem test_witness_listening : (hub (portS (listenColds [])) (portHub .p0)).fwRunning = true ∧
    (port (portS (listenColds [])) .p0).linkUp = true ∧ (port (portS (listenColds [])) .p0).node = .listen ∧
    (listenColds []).colds = [] ∧ ({ upPort .listen with guard := { st := .listen } } : Port).guard.lastCold = none ∧
    (∃ t, nextCold (portS (listenColds [])) .p0 (listenColds []) = some t ∧
      (∃ f, ColdPasses (listenColds []) f ∧ proposal (portS (listenColds [])) .h0 ≤ f.roundFull ∧ f.arriveNs = t) ∧
      (∃ f, ColdPasses (listenColds []) f ∧ f.roundFull < proposal (portS (listenColds [])) .h0 ∧ f.arriveNs = t) ∧
      (∃ f, ColdPasses (listenColds []) f ∧ f.arriveNs = t - 1)) ∧
    (∃ f, ColdPasses (listenColds [(5, 0)]) f ∧ (5 : Nat) ≠ senderNode f.head ∧ ((0 : Int) - f.sentNs).natAbs < 20000) ∧
    (listenColds [(5, 0)]).collAt = none ∧ (listenColds [(5, 0)]).node ≠ .integrated := by
  have own : proposal (portS (listenColds [])) .h0 = 100 := by decide +kernel
  have c (r a) := test_cold (listenColds []) r a (by decide)
  refine ⟨rfl, rfl, rfl, rfl, rfl, ⟨_, rfl, ?_, ?_, ?_⟩, ?_, rfl, by decide⟩
  · obtain ⟨f, h, r, a, -⟩ := c 100 _; exact ⟨f, h, by rw [own, r]; decide, a⟩
  · obtain ⟨f, h, r, a, -⟩ := c 99 _; exact ⟨f, h, by rw [own, r]; decide, a⟩
  · obtain ⟨f, h, -, a, -⟩ := c 99 _; exact ⟨f, h, a⟩
  · obtain ⟨f, h, -, -, b, e⟩ := test_cold (listenColds [(5, 0)]) 99 0 (by decide)
    exact ⟨f, h, by rw [e]; decide, by rw [b]; decide⟩
theorem test_witness_leading : (∃ t, nextCold (portS (upPort .leading)) .p0 (upPort .leading) = some t ∧
      ∃ f, ColdPasses (upPort .leading) f ∧ (upPort .leading).round < f.roundFull ∧ f.arriveNs = t) ∧
    (upPort .leading).colds = [] ∧ (upPort .leading).known = true := by
  obtain ⟨f, h, r, a, -⟩ := test_cold (upPort .leading) 101 ((nextCold (portS (upPort .leading)) .p0 (upPort .leading)).getD 0)
    (by decide)
  exact ⟨⟨_, rfl, f, h, by rw [r]; decide, a⟩, rfl, rfl⟩
theorem test_witness_sync : (∃ f, SyncPasses (listenColds []) f) ∧ (upPort .integrated).known = true ∧
    (∃ f, SyncPasses (upPort .integrated) f ∧ slotMatches (portS (upPort .integrated)) .p0 f.head = true ∧
      f.head.devNs.natAbs ≤ 1000) ∧ (1000 : Int) < 1001 ∧ (1001 : Int).natAbs ≤ 8000 ∧
    (∀ v ∈ [(5, (7 : Int))], v.1 ≠ senderNode (aHead 1 0xF002 0)) := by
  obtain ⟨f, h, -⟩ := test_sync (listenColds []) (by decide)
  obtain ⟨g, k, e⟩ := test_sync (upPort .integrated) (by decide)
  exact ⟨⟨f, h⟩, rfl, ⟨g, k, by rw [e]; decide, by rw [e]; decide⟩, by decide, by decide, by decide⟩
theorem test_witness_correction_4us : (midpoint (0 :: [(1, (8000 : Int))].map (·.2))).natAbs ≤ 4000 ∧
    4000 < (midpoint (0 :: [(1, (8002 : Int))].map (·.2))).natAbs := ⟨by decide, by decide⟩
theorem test_witness_integration : Runs (portS { upPort .integrating with goodRds := 2 }) ∧
    (portS { upPort .integrating with goodRds := 2 }).grp.roundFixed = true ∧
    ({ upPort .leading with lastSyncs := 2 } : Port).lastSyncs = 2 ∧
    (portS { upPort .integrating with goodRds := 2 }).grp.round.toNat ≤ (upPort .integrating).round.toNat ∧
    mustLeave { upPort .integrated with missRds := 3 } = true ∧ mustLeave { upPort .integrated with fewRds := 3 } = false :=
  ⟨⟨by decide, by decide⟩, rfl, rfl, by decide, by decide, by decide⟩
def openPort : Port := { upPort .integrated with guard := { st := .locked, isOpen := true } }
def ownSync0 : Cfg := { busPlan with plan1 := [{ syncSlot with owner := nodeField (hubNode .h0) }] }
def syncS : State := { portS openPort with grp := { fullGrp with cfg := ownSync0 } }
theorem test_witness_own_slots : slotAt (portS openPort) .p0 1 = some downSlot ∧ ownSlot (portS openPort) .p0 1 = true ∧
    downSlot.kind = 2 ∧ (upPort .integrated).guard.isOpen = false ∧ openPort.guard.isOpen = true ∧
    ownSlot syncS .p0 0 = true ∧ slotAt syncS .p0 0 = some { syncSlot with owner := nodeField (hubNode .h0) } :=
  ⟨by decide, by simp [ownSlot, show slotAt (portS openPort) .p0 1 = some downSlot from rfl, downSlot], rfl, rfl, rfl,
    by simp [ownSlot, show slotAt syncS .p0 0 = some { syncSlot with owner := nodeField (hubNode .h0) } from rfl, syncSlot,
      portHub], rfl⟩
def aTele : Tele := { addr := 1, kind := 0, sq := 100 }
def teleS : State := { portS openPort with hubs := ⟨{ fwRunning := true, lo := openPort, tele := [(1, aTele)] }, {}⟩ }
theorem test_witness_telegrams : frameTeles (busCfg teleS) (hub teleS .h0) 1 0 (port teleS .p0).round ≠ [] := by decide +kernel

def endsAt (t : Int) : TxFrame := { slot := 1, bytes := [], endsNs := t }
theorem test_witness_guardians : ({ st := .listen, accepted := 3 } : Guard).st = .listen ∧ 3 ≤ ({ accepted := 3 } : Guard).accepted ∧
    ({ accepted := 2 } : Guard).accepted < 3 ∧ 3 ≤ ({ st := .locked, rejected := 3 } : Guard).rejected ∧
    ({ rejected := 2 } : Guard).rejected < 3 ∧ openPort.guard.st = .locked ∧ openPort.guard.rejectNow = false ∧
    ownSlot (portS openPort) .p0 2 = false ∧ openPort.guard.st ≠ .closed ∧ openPort.node = .integrated ∧ openPort.known = true ∧
    ({ openPort.guard with predNs := some 500 } : Guard).predNs = some 500 ∧ ((700 : Int) - 500).natAbs ≤ 200 ∧
    200 < ((701 : Int) - 500).natAbs ∧ openPort.sending = none ∧
    ({ openPort with sending := some (endsAt 7250) } : Port).sending = some (endsAt 7250) ∧
    (endsAt 7250).endsNs ≤ 10 * (downSlot.len : Int) - 750 ∧ 10 * (downSlot.len : Int) - 750 < (endsAt 7251).endsNs :=
  ⟨rfl, by decide, by decide, by decide, by decide, rfl, rfl, by decide, by decide, rfl, rfl, rfl, by decide, by decide, rfl, rfl,
    by decide, by decide⟩

def busS : State := portS (upPort .integrated)
def uplinkOf (c : DWord) : UplinkFrame := { head := aHead 4 1 2, payload := List.replicate 8 1, code := c }
/-- A lane whose tables give station 1 another key. -/
def oddKeys : Cfg := { busPlan with vitalIds := [(1, 0, 5)] }
/-- GRANT of spare slot 3, 8 bytes, from round 300 on, as station 7's telegram. -/
def grantPay : List Byte := beBytes 2 3 ++ beBytes 2 8 ++ beBytes 4 300
def grantBody (kind : Nat) : List Byte := subHeader 7 8 kind 0 ++ grantPay ++ List.replicate 12 0
theorem test_ne_succ (x : DWord) : x + 1 ≠ x := by bv_omega
theorem test_witness_frames : (hub busS .h0).fwRunning = true ∧ (port busS .p0).linkUp = true ∧ (port busS .p0).node = .integrated ∧
    lenOk (aHead 4 1 2) = true ∧ lenOk { aHead 4 1 2 with len := 63 } = false ∧ lenOk { aHead 4 1 2 with len := 1519 } = false ∧
    (listenColds []).known = false ∧ earlyFault (busCfg busS) .p0 { aHead 4 1 2 with fcsOk := false } = some 0 ∧
    earlyFault (busCfg busS) .p0 (aHead 4 1 2) = none ∧
    frameFault busS .p0 { aHead 4 1 2 with devNs := 1001 } = some 7 ∧ frameFault busS .p0 { aHead 4 1 2 with round := 99 } = some 4 ∧
    frameFault busS .p0 (aHead 4 1 2) = none ∧ frameFault busS .p0 (aHead 5 1 3) = none ∧
    frameFault busS .p0 (aHead 3 0xF007 1) = none :=
  ⟨rfl, rfl, rfl, by decide, by decide, by decide, rfl, by decide, by decide, by decide, by decide, by decide, by decide, by decide⟩
/-- Different registers stay different through a CRC-64 scan. -/
theorem test_crc64Bit_inj {a b : DWord} (h : crc64Bit a = crc64Bit b) : a = b := by
  have e (r : DWord) : crc64Bit r = (r <<< 1) ^^^ (if r.getLsbD 63 then 0x42F0E1EBA9EA3693 else 0) := by
    unfold crc64Bit; split <;> simp
  have z (r : DWord) : (crc64Bit r).getLsbD 0 = r.getLsbD 63 := by
    rw [e]; by_cases c : r.getLsbD 63 = true <;> simp only [c] <;> simp
  have m : a.getLsbD 63 = b.getLsbD 63 := by rw [← z, ← z, h]
  rw [e, e, m, BitVec.xor_left_inj] at h
  apply BitVec.eq_of_getLsbD_eq
  intro i hi
  by_cases c : i = 63
  · rw [c, m]
  · have := congrArg (·.getLsbD (i + 1)) h
    simpa [hi, show i + 1 < 64 by omega] using this
theorem test_crc64Byte_inj {a b : DWord} (x : Byte) (h : crc64Byte a x = crc64Byte b x) : a = b := by
  have r (n : Nat) : ∀ u v : DWord, Nat.repeat crc64Bit n u = Nat.repeat crc64Bit n v → u = v := by
    induction n with
    | zero => exact fun _ _ h => h
    | succ n ih => exact fun u v h => ih u v (test_crc64Bit_inj h)
  simpa using r 8 _ _ h
theorem test_crc64From_inj (bs : List Byte) {a b : DWord} (h : crc64From a bs = crc64From b bs) : a = b := by
  induction bs generalizing a b with
  | nil => exact h
  | cons x r ih => exact test_crc64Byte_inj x (ih h)
theorem test_seeds : crc64From (BitVec.allOnes 64) (seedBlock 1 0x10120 1) ≠ crc64From (BitVec.allOnes 64) (seedBlock 5 0x10120 1) := by decide +kernel
theorem test_odd_keys : stationCode busPlan 0x20 (aHead 4 1 2) (List.replicate 8 1) ≠
    stationCode oddKeys 0x20 (aHead 4 1 2) (List.replicate 8 1) := by
  intro h
  have k : stationKey busPlan (1 % 4096) = 1 ∧ stationKey oddKeys (1 % 4096) = 5 := by decide
  simp only [stationCode, crc64Fold, show (aHead 4 1 2).sender = 1 from rfl, k.1, k.2] at h
  have q := congrArg (~~~ ·) h
  simp only [BitVec.not_not] at q
  exact test_seeds (test_crc64From_inj _ q)
theorem test_uplink_code (c : DWord) (h : c = stationCode busPlan 0x20 (aHead 4 1 2) (List.replicate 8 1)) :
    (uplinkOf c).code = stationCode (busCfg busS) 0x20 (uplinkOf c).head (uplinkOf c).payload ∧
    (uplinkOf c).code = stationCode (lane busS .l0).cfg 0x20 (uplinkOf c).head (uplinkOf c).payload := ⟨h, h⟩
theorem test_witness_uplinks : (∃ f : UplinkFrame, f.head = aHead 4 1 2 ∧
      f.code = stationCode (busCfg busS) 0x20 f.head f.payload ∧ ulLenOf busS 1 = some f.payload.length ∧
      f.code = stationCode (lane busS .l0).cfg 0x20 f.head f.payload ∧ f.code ≠ stationCode oddKeys 0x20 f.head f.payload) ∧
    .l0 ∈ hearing busS ∧ .l3 ∉ hearing (fullS id id fun L => { L with loaded := false }) ∧
    (tblGetD (lane busS .l0).stn 1 {}).lastSeq = none ∧
    ((tblGet (hub busS .h0).passed 1).all fun v => newer 1 v.1) = true ∧
    stationCode (busCfg busS) 0x20 (aHead 4 1 2) (List.replicate 8 1) + 1 ≠
      stationCode (busCfg busS) 0x20 (aHead 4 1 2) (List.replicate 8 1) ∧
    (tblGet [(1, ((1 : Word), 0))] 1).any (fun v => !newer 1 v.1) = true :=
  ⟨(⟨_, rfl⟩ : ∃ c, c = stationCode busPlan 0x20 (aHead 4 1 2) (List.replicate 8 1)).elim fun c h =>
      ⟨uplinkOf c, rfl, (test_uplink_code c h).1, rfl, (test_uplink_code c h).2, by rw [show (uplinkOf c).code = c from rfl, h]; exact test_odd_keys⟩,
    by decide, by decide, by decide, by decide, test_ne_succ _, by decide⟩
theorem test_witness_grants : teleList (grantBody 1).length (grantBody 1) = [(7, 1, grantPay)] ∧
    teleList (grantBody 2).length (grantBody 2) = [(7, 2, grantPay)] ∧ beNat (sliceBytes grantPay 0 2) ≠ 0xFFFF ∧
    isOwner busS.grp = false ∧ (∀ y ∈ busS.grp.grants, y.addr ≠ 8) ∧
    isOwner { fullGrp with cfg := { busPlan with owners := [hubNode .h0] } } = true :=
  ⟨by decide, by decide, by decide, by decide, by decide, by simp [isOwner, fullGrp, hubNode]⟩
def owners (a : List Nat) (q : Tbl Nat) : State := fullS (fun g => { g with cfg := { busPlan with owners := a }, ownerQuiet := q }) id id
theorem test_witness_owner : ownPlace (owners [hubNode .h0 + 1, hubNode .h0] [(0, 4)]).grp.cfg = some 1 ∧
    (owners [hubNode .h0 + 1, hubNode .h0] [(0, 4)]).grp.ownerIdx < 1 ∧
    quietBefore (owners [hubNode .h0 + 1, hubNode .h0] [(0, 4)]).grp 1 = true ∧
    isOwner (owners [hubNode .h0] []).grp = true ∧
    ownerOf { busPlan with owners := [7] } (senderNode (aHead 3 0xF007 1)) = some 0 :=
  ⟨by simp [ownPlace, owners, fullS, List.range, List.range.loop], by decide, by decide,
    by simp [isOwner, owners, fullS, fullGrp, hubNode], by decide⟩
def aGrant : Grant := { seg := 1, slot := 0, addr := 7, len := 8, since := 0, silent := 2000 }
theorem test_witness_release : (busS.grp.grants.find? fun y => y.addr == 7 && y.until_.isNone) = some aGrant ∧
    busS.grp.cfg.spareRel ≤ aGrant.silent := ⟨by decide, by decide⟩
def svcReq : SvcReq := { write := false, param := 0, data := [], len := 4, hub := .h0, tag := 7, handle := 0x10000001, round := 0 }
def svcS : State :=
  { fullS (fun g => { g with svc := [(1, { queue := [svcReq], since := some 0 })] })
      (fun L => { L with stn := [(1, { sinceUp := 65536 })] }) id with
    hubs := ⟨{ pendRd := [⟨7, 0x10000001, 0x0802, 0⟩] }, {}⟩ }
theorem test_witness_service : (tblGetD svcS.grp.svc 1 {}).since.isSome = true ∧
    (tblGetD svcS.grp.svc 1 {}).queue.head? = some svcReq ∧
    ((tblGetD svcS.grp.svc 1 {}).since.getD 0).toNat + svcS.grp.cfg.svcTimeout ≤ svcS.grp.round.toNat ∧ svcReq.write = false ∧
    (hub svcS .h0).pendRd.find? (fun x => x.tag == 7) = some ⟨7, 0x10000001, 0x0802, 0⟩ ∧ (hub svcS .h0).draining = none ∧
    (∃ l ∈ seated svcS, ∃ v, tblGet (lane svcS l).stn 1 = some v ∧ 65536 ≤ v.sinceUp) :=
  ⟨rfl, rfl, by decide, rfl, rfl, rfl, ⟨.l0, by decide, { sinceUp := 65536 }, rfl, by decide⟩⟩

/-! ## Tiles and safety functions -/

/-- A tile with the field side up, TILE_SILENCE 2, channel words: 0 input, 1 output, 2 source C02, 3 input naming source C02. -/
def chW : List DWord := [0x0000000200000001, 0x60000002, 0x60000003, 0x00800001] ++ List.replicate 12 0
def aTile : Tile :=
  { word := 0x200, chWords := chW, fieldUp := true, map := ⟨some .l0, some .l1, some .l2⟩, logicSilent := false,
    fieldRound := some 100, boundary := some 100 }
def tileS (f : Tile → Tile) : State := { run with tiles := ⟨f aTile, {}⟩ }
def gFrame (st : SeatId) (r : DWord) : GateFrame := { seat := st, round := r, upper := 2, lower := 2, cuffs := 3, code := 0 }
theorem test_gate_code (t : TileId) (f : GateFrame) : (∃ x, x = gateCode t { f with code := x }) ∧ ∃ x, x ≠ gateCode t { f with code := x } :=
  have e (x : Word) : gateCode t { f with code := x } = gateCode t f := rfl
  ⟨⟨gateCode t f, (e _).symm⟩, gateCode t f + 1, fun h => by simpa using h.trans (e _)⟩
theorem test_witness_gate_frames : (gateLane (tileS id) .t0 .s1).isSome = true ∧
    (gFrame .s1 100).round = fieldNow (tileS id) (tile (tileS id) .t0) ∧
    (∃ x, x = gateCode .t0 { gFrame .s1 100 with code := x }) ∧ (∃ x, x ≠ gateCode .t0 { gFrame .s1 100 with code := x }) ∧
    (gFrame .s1 101).round ≠ fieldNow (tileS id) (tile (tileS id) .t0) ∧
    gateLane (tileS fun T => { T with map := ⟨none, none, none⟩ }) .t0 .s1 = none ∧
    (tile (tileS id) .t0).boundary ≠ some (nextRound (tileS id)) ∧ (tileS id).grp.roundFixed = true ∧ Runs (tileS id) :=
  ⟨by decide, by decide, (test_gate_code _ _).1, (test_gate_code _ _).2, by decide, by decide, by decide, rfl, ⟨by decide, by decide⟩⟩
/-- A boundary at which seat 1 and seat 2 have frames of the current round and seat 3 has been without one for 2 rounds. -/
def framedT (T : Tile) : Tile :=
  { T with seat1 := { frame := some (gFrame .s1 100) }, seat2 := { frame := some (gFrame .s2 100) }, seat3 := { silent := 2 } }
theorem test_witness_framed : (tile (tileS framedT) .t0).boundary ≠ some (nextRound (tileS framedT)) ∧
    (gateLane (tileS framedT) .t0 .s1).isSome = true ∧
    (∃ y, (seatDrive (tile (tileS framedT) .t0) .s2).frame = some y ∧ y.round = fieldNow (tileS framedT) (tile (tileS framedT) .t0)) ∧
    (¬ ∃ y, (seatDrive (tile (tileS framedT) .t0) .s3).frame = some y ∧ y.round = fieldNow (tileS framedT) (tile (tileS framedT) .t0)) ∧
    tileSilence (tile (tileS framedT) .t0) ≤ (seatDrive (tile (tileS framedT) .t0) .s3).silent + 1 ∧
    (seatDrive (tile (tileS framedT) .t0) .s1).frame = some (gFrame .s1 100) ∧
    (gFrame .s1 100).round = fieldNow (tileS framedT) (tile (tileS framedT) .t0) :=
  ⟨by decide, by decide, ⟨_, rfl, by decide⟩, (fun ⟨_, h, _⟩ => by cases h), by decide, rfl, by decide⟩
def struckT (T : Tile) : Tile := { T with boundary := some 101, fieldRound := some 101, seat1 := { struck := true } }
def aSnap (r : DWord) : Snapshot := { round := r }
theorem test_witness_strobes : (tile (tileS struckT) .t0).boundary = some (nextRound (tileS struckT)) ∧
    (seatDrive (tile (tileS struckT) .t0) .s1).struck = true ∧ (seatDrive (tile (tileS struckT) .t0) .s2).struck = false ∧
    strobesOf (tile (tileS struckT) .t0) = 1 ∧ (gateLane (tileS struckT) .t0 .s2).isSome = true ∧
    (tile (tileS fun T => { T with snap := some (aSnap 101) }) .t0).snap = some (aSnap 101) ∧
    laneSnap .t0 { snap0 := some (aSnap 101) } = some (aSnap 101) ∧ (aSnap 101).round = nextRound run ∧
    (aSnap 100).round ≠ nextRound run ∧ isSeated run .l3 = false ∧ isSeated run .l0 = true ∧
    (∃ o, o ≠ .l0 ∧ isSeated run o = true ∧ quadGet (Quad.mk none (some aTile.map) none none) o = some aTile.map) ∧
    (∀ o, o ≠ .l0 → isSeated run o = true → quadGet (tile (tileS id) .t0).offered o ≠ some aTile.map) ∧
    (seatDrive (tile (tileS id) .t0) .s1).frame = none ∧ (seatDrive (tile (tileS id) .t0) .s1).isSilent = false ∧
    (seatDrive (tile (tileS id) .t0) .s1).silent < tileSilence (tile (tileS id) .t0) ∧
    tileSilence (tile (tileS id) .t0) ≤ (seatDrive (tile (tileS fun T => { T with seat1 := { silent := 2 } }) .t0) .s1).silent :=
  ⟨by decide, rfl, rfl, by decide, by decide, rfl, rfl, by decide, by decide, by decide, by decide, ⟨.l1, by decide, by decide, rfl⟩,
    fun o _ _ => by cases o <;> decide, rfl, rfl, by decide, by decide⟩
theorem test_witness_inputs : isInput (tile (tileS id) .t0) 0 = true ∧ (chan (tile (tileS id) .t0) 0).deb ≠ true ∧
    (chan (tile (tileS id) .t0) 0).heldIn = false ∧ (chan (tile (tileS id) .t0) 0).deb = false := ⟨by decide, by decide, by decide, by decide⟩

def onDrive : SeatDrive := { upper := 2, lower := 2, cuffs := 3 }
def onTile (T : Tile) : Tile := { T with seat1 := onDrive, seat2 := onDrive, seat3 := onDrive }
def withCh (k : Nat) (c : Chan) (T : Tile) : Tile := withChan T k c
theorem test_witness_tests : chMode (chWord aTile 2) = 3 ∧ sourceDown ({ glove := true } : Chan) = true ∧
    mayTest (tileS onTile) .t0 1 = true ∧ mayTest (tileS onTile) .t0 2 = true ∧
    sourceDown (chan (tile (tileS onTile) .t0) 2) = false ∧ (3 < 16 ∧ namesSource .t0 aTile 2 3 = true) ∧
    (chan (tile (tileS id) .t0) 1).testing = none ∧ (chan (tile (tileS (withCh 1 { testing := some { dark := true } })) .t0) 1).testing = some { dark := true } :=
  ⟨by decide, by decide, by decide, by decide, by decide, ⟨by decide, by decide⟩, by decide, by decide⟩
def testT (d v : Bool) : Tile → Tile := withCh 2 { testing := some { dark := d, isVoid := v } }
/-- Channel 4 of tile 0 stands in EXT_FEED, and input 3 is held on while source 2 is tested. -/
def fedT (T : Tile) : Tile := withCh 3 { heldIn := true, deb := true } (withCh 4 { extFeed := true } (testT true false T))
def aReading : GloveReading :=
  { lplusMv := 24000, mids := [12000, 12000, 12000], subs := [0, 0, 0, 0, 0, 0], loadMa := 0, pairMa := 0, nodeMv := 0,
    pairsMa := [0, 0, 0], rawOn := [], nodes := [(4, 100)], isVoid := false }
theorem test_witness_readings : (chan (tile (tileS (testT true false)) .t0) 2).testing = some { dark := true, isVoid := false } ∧
    (chan (tile (tileS (testT true true)) .t0) 2).testing = some { dark := true, isVoid := true } ∧
    (chan (tile (tileS (testT false false)) .t0) 2).testing = some { dark := false, isVoid := false } ∧
    (({ dark := true, isVoid := true } : TestRun).isVoid || aReading.isVoid) = true ∧
    (({ dark := true, isVoid := false } : TestRun).isVoid || aReading.isVoid) = false ∧
    senseGain (tileS (testT true false)) (chNum .t0 2) * aReading.loadMa < 20 * 10000 ∧
    (3 < 16 ∧ namesSource .t0 (tile (tileS fedT) .t0) 2 3 = true) ∧ (chan (tile (tileS fedT) .t0) 3).heldIn = true ∧
    (chan (tile (tileS fedT) .t0) 3).deb = true ∧ (4, 100) ∈ aReading.nodes ∧ 4 < 32 ∧ 4 ≠ chNum .t0 2 ∧
    (chan (tile (tileS fedT) (tileOfCh 4)) (4 % 16)).extFeed = true ∧ 100 < 5000 ∧
    (∃ j, j ≠ 2 ∧ ¬ (j < 16 ∧ namesSource .t0 (tile (tileS fedT) .t0) 2 j = true)) ∧
    ((chan (tile (tileS (testT true false)) .t0) 2).testing = some { dark := true, isVoid := false } ∧
      decide (8 ≤ 2) = false) ∧ (duoGet (tile (tileS id) .t0).cuffs false).forGood = false ∧
    (duoGet (tile (tileS fun T => withCuff T false { forGood := true }) .t0).cuffs false).forGood = true :=
  ⟨by decide, by decide, by decide, by decide, by decide, by decide, ⟨by decide, by decide⟩, by decide, by decide, by decide,
    by decide, by decide, by decide, by decide, ⟨1, by decide, by decide⟩, ⟨by decide, rfl⟩, rfl, rfl⟩
theorem test_witness_outputs : chMode (chWord aTile 1) = 2 ∧ nodeOn (tileS onTile) .t0 1 = true ∧
    mitten (tile (tileS fun T => onTile { T with word := 0x201 }) .t0) = true ∧
    nodeOn (tileS fun T => onTile { T with word := 0x201 }) .t0 2 = true ∧ cuffShut (tileS onTile) .t0 true = true ∧
    cuffShut (tileS id) .t0 true = false ∧ mitten aTile = false ∧ commandedOn (tileS id) .t0 1 = false ∧
    (chan (tile (tileS id) .t0) 1).lost = false ∧ 5000 < 5001 ∧
    10 * 10000 < senseGain (tileS id) (chNum .t0 1) * 11 ∧ vitalOutputs aTile false = false ∧
    vitalOutputs { aTile with chWords := [0, 10] } false = true :=
  ⟨by decide, by decide, by decide, by decide, by decide, by decide, by decide, by decide, by decide, by decide, by decide,
    by decide, by decide⟩
/-- A trim of -2 % makes 10 mA of the sensor less than 10 mA, one of +2 % more (R513). -/
theorem test_current_trim :
    let trimmed (v : Int) : State := { tileS id with grp := { (tileS id).grp with settings := { isense := [(1, v)] } } }
    senseGain (trimmed (-200)) 1 * 10 < 10 * 10000 ∧ 10 * 10000 < senseGain (trimmed 200) 1 * 10 :=
  ⟨by decide, by decide⟩
theorem test_witness_supplies : 14999 < 15000 ∧ 15000 ≤ 15000 ∧ 19199 < 19200 ∧ 19200 ≤ 19200 ∧ 19699 < 19700 ∧ 19700 ≤ 19700 ∧
    7 < 8 ∧ 7 ∉ ({} : Chan).failCpl ∧ ({} : Chan).spareCpl ≠ some 7 ∧ ({ failCpl := [3] } : Chan).failCpl ≠ [] ∧
    ({ failCpl := [6] } : Chan).failCpl = [6] ∧ 6 < 7 :=
  ⟨by decide, by decide, by decide, by decide, by decide, by decide, by decide, by decide, by decide, by decide, rfl, by decide⟩

/-- Station 1's uplink carries the channels of function 4 and the feedbacks of drive 2 (points 10 and 11) and its speed (12). -/
def aFn : FnCfg := { fn := 4, ctx := 1, chA := 10, chB := 11, n := 50 }
def aDrv : DriveCfg := { drv := 2, ctx := 1, permit := 20, fbA := 10, fbB := 11, speed := 12, env := [(0, 10000)], still := 0, tMax := 10, fbTime := 5 }
def pairCfg : Cfg :=
  { stations := [{ addr := 1, ctx := 1, points := [{ index := 10 }, { index := 11 }, { index := 12, word := true }] }], fns := [aFn],
    drives := [aDrv], roundTicks := 10 }
/-- An uplink payload with the two bits and the speed. -/
def fnPay (bits : Byte) (speed : Byte) : List Byte := List.replicate 8 0 ++ [bits, 0, 0, speed, 0, 0, 0, 0]
def fnLane (up : Tbl UplPair) (x : FnRun) (y : DrvRun) (L : Lane) : Lane :=
  { L with cfg := pairCfg, fns := [(4, x)], drvs := [(2, y)], upl := up, ctxs := [(1, { st := .running, safePub := false, pub := [(20, 1)] })] }
def fnUp (bits speed : Byte) : Tbl UplPair := [(1, { a := some { payload := fnPay bits speed, seq := 1 } })]
def fnS (up : Tbl UplPair) (x : FnRun) (y : DrvRun) : State := fullS (fun g => { g with cfg := pairCfg }) (fnLane up x y) id
theorem test_witness_enabled :
    (fnRound pairCfg ⟨[(1, { payload := List.replicate 16 0xFF, seq := 1 })], none, none⟩ aFn 0 100
      { st := .released }).enable = true := by decide
theorem test_witness_functions :
    let s := fnS (fnUp 1 0) { st := .discrepant, c := 49 } {}
    .l0 ∈ runLanes s ∧ .l3 ∉ runLanes s ∧ Runs s ∧ s.grp.roundFixed = true ∧
    (lane s .l0).cfg.fns.find? (fun a => a.fn == 4) = some aFn ∧
    tblGetD (lane s .l0).fns 4 {} = { st := .discrepant, c := 49 } ∧
    fnSamples pairCfg (frozenOf (lane s .l0) (nextRound s)) aFn s.grp.groupTime.toNat 10 = [] ++ FnSample.x :: [] ∧
    fnLimit pairCfg aFn 10 ≤ 49 + 1 ∧ FnSt.discrepant ≠ .fault ∧ ({ st := .discrepant, c := 49 } : FnRun).moved ≠ some (nextRound s) :=
  ⟨by decide, by decide, ⟨by decide, by decide⟩, rfl, by decide, by decide, by decide, by decide, by decide, by decide⟩
/-- A drive's state at the boundary of round 101, group time 1,000,010, with its frozen feedbacks and speed. -/
def drvSs (up : Tbl UplPair) (y : DrvRun) : State := fnS up {} y
def ss1Run (t0 lost : Nat) : DrvRun := { st := .ss1, t0 := t0, lost := lost }
theorem test_witness_drives :
    let z (up : Tbl UplPair) := frozenOf (lane (drvSs up {}) .l0) (nextRound (drvSs up {}))
    let fb (bits : Byte) := (frozenBit pairCfg (z (fnUp bits 0)) 10, frozenBit pairCfg (z (fnUp bits 0)) 11)
    (drvList (lane (drvSs [] {}) .l0)).find? (fun a => a.drv == 2) = some aDrv ∧ tblGetD (lane (drvSs [] (ss1Run 7 1)) .l0).drvs 2 {} = ss1Run 7 1 ∧
    nextTime (drvSs [] {}) = 1000010 ∧ 1000010 - 999910 = 10 * aDrv.tMax ∧ 1000010 - 999911 < 10 * aDrv.tMax ∧ 0 < aDrv.stillRds ∧
    speedCount pairCfg (z (fnUp 0 0)) aDrv = some 0 ∧ (0 * 10000 ≤ aDrv.still * 10 ∧ aDrv.stillRds ≤ 0 + 1) ∧
    speedCount pairCfg (z (fnUp 0 1)) aDrv = some 1 ∧ ¬ 1 * 10000 ≤ aDrv.still * 10 ∧ breaches aDrv 1 90 10 = false ∧
    speedCount pairCfg (z []) aDrv = none ∧ 1 ≤ (ss1Run 999911 1).lost ∧
    permitOf (lane (drvSs [] {}) .l0) aDrv = true ∧ (ctxRun (lane (drvSs [] {}) .l0) 1).st = .running ∧
    [0, 1, 3].map fb = [(false, false), (true, false), (true, true)] ∧ fbRounds aDrv 10 = 5 ∧
    5 ≤ ({ st := .run, rounds := 4 } : DrvRun).rounds + 1 ∧ 5 ≤ ({ st := .run, fbOk := true, badA := 5 } : DrvRun).badA ∧
    (fullS (fun g => { g with roundFixed := false }) id id).grp.roundFixed = false :=
  ⟨by decide, by decide, by decide, by decide, by decide, by decide, by decide, by decide, by decide, by decide, by decide, by decide,
    by decide, by decide, by decide, by decide, by decide, by decide, by decide, rfl⟩
/-! ## Host commands -/

/-- The checks of Passes, as a computation. -/
def passesB (s : State) (i : Instr) (hd : Hdr) : Bool :=
  match hostRow i with
  | none => false
  | some r => decide (r.hd = hd) && fetchable s hd r.maxRep r.items && hd.version == 1 && hd.flagRsv == 0 && hd.status == 0 &&
      !tagKnown s hd.hub hd.tag && (handleCheck s hd.hub r.ty hd.handle).isNone && r.len s && (!r.unsealed || !isSealed s) &&
      r.allowed s.mod.op && s.mod.pwrgd
theorem test_fetched (s : State) (hd : Hdr) (n k : Nat) (hp : s.mod.pwrgd = true) (h : fetchable s hd n k = true) :
    Fetched s hd n k := (fetchable_iff s hd n k hp).mp h
theorem test_passes (s : State) (i : Instr) (hd : Hdr) (h : passesB s i hd = true) : Passes s i hd := by
  unfold passesB at h
  split at h
  · exact absurd h (by simp)
  · rename_i r hr
    simp only [Bool.and_eq_true, Bool.or_eq_true, Bool.not_eq_true', decide_eq_true_eq, beq_iff_eq, Option.isNone_iff_eq_none] at h
    obtain ⟨⟨⟨⟨⟨⟨⟨⟨⟨⟨a, b⟩, c⟩, d⟩, e⟩, f⟩, g⟩, i1⟩, j⟩, k⟩, m⟩ := h
    exact ⟨r, hr, a, test_fetched s hd _ _ m b, ⟨c, d, e, f⟩, g, i1, fun hu => j.resolve_left (by simp [hu]), k⟩

def cmdHub : Hub := { liveHub with cmdProd := 8 }
/-- An unsealed FULL group, state op, hub H0 with four units of commands; the group, the hub and L0 as changed. -/
def cmdS (op : OpState) (g : Group → Group) (H : Hub → Hub) (l0 : Lane → Lane) : State :=
  { fullS g l0 id with mod := { pwrgd := true, op := op }, hubs := ⟨H cmdHub, {}⟩ }
def svc : State := cmdS .service id id id
def hdOf (w : Word) (plen : Nat) : Hdr :=
  { hub := .h0, tag := 9, handle := w, fence := false, irq := false, flagRsv := 0, version := 1, status := 0, plen := plen, us := 0 }
def opened (w : Word) (o : CreateBlock) (g : Group) : Group := { g with handles := [⟨w, .h0, .h0, o, [], false⟩] }
def goodS (w : Word) (o : CreateBlock) : State := cmdS .service (opened w o) id id

theorem test_witness_refusals : ¬ Fetched run (hdOf 0 0) 0 1 ∧ Fetched svc (hdOf 0 0) 144 1 ∧
    hubServes (hub svc .h0) = true ∧ nextInRing svc (hdOf 0 0) = true ∧ nextInRing run (hdOf 0 0) = false ∧ hostReach (hub svc .h0) = true ∧
    ¬ Fetched (setHub svc .h0 { hub svc .h0 with cmdProd := 0 }) (hdOf 0 0) 0 1 ∧ GoodHeader svc (hdOf 0 0) ∧
    { hdOf 0 0 with version := 2 }.version ≠ 1 ∧
    tagKnown (cmdS .service (fun g => { g with tags0 := [{ tag := 9, opcode := 0x0101 }] }) id id) .h0 9 = true ∧
    (∃ r, hostRow (.identity (hdOf 1 0)) = some r ∧ r.ty = none ∧ (hdOf 1 0).handle ≠ 0) ∧
    (∃ r, hostRow (.stationStatus (hdOf 0 0)) = some r ∧ r.ty = some 1) ∧ handleType 0x20000001 ≠ 1 ∧ handleType 0x60000001 = 6 ∧
    (∃ x ∈ (goodS 0x10100007 (.station 7)).grp.handles, x.server = .h0 ∧ handleType x.word = handleType 0x10000007 ∧
      handleIdx x.word = handleIdx 0x10000007 ∧ x.word ≠ 0x10000007) ∧
    handleCheck svc .h0 none 0 = none ∧ handleCheck (goodS 0x10000007 (.station 7)) .h0 (some 1) 0x10000007 = none ∧
    (∃ r, hostRow (.tileStatus (hdOf 0 0) 0) = some r ∧ r.len svc = false) ∧
    (∃ r, hostRow (.hatConfirm (hdOf 0 8) 0) = some r ∧ r.unsealed = true ∧ r.len svc = true ∧ r.allowed .service = false) ∧
    isSealed (cmdS .bench id id fun L => { L with nv := { sealRec := some { hat := 0, round := 0 } } }) = true ∧
    listedOpcodes.contains 0x0B00 = false ∧ Fetched (setHub svc .h0 { hub svc .h0 with cmdProd := 7 }) (hdOf 0 0) 0 1 :=
  ⟨fun h => absurd h.serves (by decide), test_fetched _ _ _ _ rfl (by decide), by decide, by decide, by decide, by decide,
    fun h => absurd h.avail (by decide), ⟨rfl, rfl, rfl, by decide⟩, by decide, by decide,
    ⟨_, rfl, rfl, by decide⟩, ⟨_, rfl, rfl⟩, by decide, by decide, ⟨_, List.mem_singleton.mpr rfl, rfl, by decide⟩, by decide,
    by decide, ⟨_, rfl, rfl⟩, ⟨_, rfl, rfl, rfl, rfl⟩, by decide, by decide, test_fetched _ _ _ _ rfl (by decide)⟩

def tunedCfg : Cfg := { fbCfg with tunables := [{ ctx := 1, index := 3, off := 16, upper := 9 }] }
def readS : State := cmdS .service (fun g => { opened 0x70000000 (.counters 0 1) g with cfg := tunedCfg }) id fun L => { L with cfg := tunedCfg }
def mirS : State :=
  cmdS .service (opened 0x10000007 (.station 7)) (fun H => { H with mirror := { H.mirror with stns := [(7, 5)] } }) id
def aSess (st : SessSt) : Session := { st := st, handle := 0x60000000 }
def sessS (x : Session) : State := cmdS .service (fun g => { opened 0x60000000 (.other 6) g with session := some x }) id id
theorem test_witness_reads : Passes svc (.identity (hdOf 0 0)) (hdOf 0 0) ∧ Passes svc (.laneStatus (hdOf 0 0)) (hdOf 0 0) ∧
    Passes svc (.groupStatus (hdOf 0 0)) (hdOf 0 0) ∧ Passes svc (.tileStatus (hdOf 0 1) 1) (hdOf 0 1) ∧
    Passes svc (.contextStatus (hdOf 0 1) 255) (hdOf 0 1) ∧ Passes mirS (.stationStatus (hdOf 0x10000007 0)) (hdOf 0x10000007 0) ∧
    tblGet (hub mirS .h0).mirror.stns (handleIdx 0x10000007) = some 5 ∧
    Passes readS (.valueRead (hdOf 0 8) 1 1 [3]) (hdOf 0 8) ∧ ctxCfg? readS.grp.cfg 1 = some vitalCtx ∧
    tunable? readS.grp.cfg 1 3 = some { ctx := 1, index := 3, off := 16, upper := 9 } ∧ tunable? readS.grp.cfg 1 4 = none ∧
    (∀ a ∈ seated readS, heldValue (lane readS a) vitalCtx { ctx := 1, index := 3, off := 16, upper := 9 } = 0) ∧
    2 ≤ (seated readS).length ∧ ctxCfg? svc.grp.cfg 1 = none ∧ Passes svc (.settingGet (hdOf 0 4) 0x11F) (hdOf 0 4) ∧
    ¬ ((1 ≤ 5 ∧ 5 ≤ 4) ∨ (0x100 ≤ 5 ∧ 5 ≤ 0x11F)) ∧
    Passes (sessS (aSess .planned)) (.updateStatus (hdOf 0x60000000 0)) (hdOf 0x60000000 0) ∧
    Passes (cmdS .service (opened 0x60000000 (.other 6)) id id) (.updateStatus (hdOf 0x60000000 0)) (hdOf 0x60000000 0) ∧
    Passes readS (.counterRead (hdOf 0x70000000 0) 5 6) (hdOf 0x70000000 0) ∧
    setOf readS (hdOf 0x70000000 0) = some (laneNum .l0, 1, false) ∧
    Passes (goodS 0x70000000 (.counters 5 1)) (.counterRead (hdOf 0x70000000 0) 5 6) (hdOf 0x70000000 0) ∧
    setOf (goodS 0x70000000 (.counters 5 1)) (hdOf 0x70000000 0) = some (4 + hubNum (peerHub .h0), 1, true) :=
  ⟨test_passes _ _ _ (by decide), test_passes _ _ _ (by decide), test_passes _ _ _ (by decide), test_passes _ _ _ (by decide),
    test_passes _ _ _ (by decide), test_passes _ _ _ (by decide), by decide, test_passes _ _ _ (by decide), by decide, by decide,
    by decide, by decide, by decide, by decide, test_passes _ _ _ (by decide), by decide, test_passes _ _ _ (by decide),
    test_passes _ _ _ (by decide), test_passes _ _ _ (by decide), by decide, test_passes _ _ _ (by decide), by decide⟩

def manyHandles : List Handle := List.replicate 16384 ⟨0x10000001, .h1, .h1, .station 1, [], false⟩
def subS (n : Nat) : State :=
  cmdS .service (fun g => { g with handles := [⟨0x20000000, .h0, .h0, .eventCh 0 4, List.replicate n (0x8000, 0), false⟩] }) id id
def tlmS : State := cmdS .service (opened 0x40000000 (.telemetry 0 0 4)) (fun H => { H with streams := [(0, aStream)] }) id
theorem test_witness_creates : Passes svc (.channelCreate (hdOf 0 8) (.station 4095)) (hdOf 0 8) ∧
    createRefusal svc .h0 (.station 4095) = none ∧ createRefusal svc .h0 (.station 4096) = some 0x0014 ∧
    16384 ≤ manyHandles.length ∧ (∃ x ∈ mirS.grp.handles, handleType x.word = 1 ∧ handleIdx x.word = 7) ∧
    Passes svc (.channelCreate (hdOf 0 16) (.eventCh 0x1000 14)) (hdOf 0 16) ∧ createRefusal svc .h0 (.eventCh 0x1000 14) = none ∧
    Passes svc (.channelCreate (hdOf 0 20) (.telemetry 5 0 4)) (hdOf 0 20) ∧ createRefusal svc .h0 (.telemetry 5 0 4) = none ∧
    createRefusal svc .h0 (.counters 0 1) = none ∧ createRefusal readS .h0 (.counters 0 1) = some 0x0030 ∧
    Passes mirS (.channelDestroy (hdOf 0x10000007 0)) (hdOf 0x10000007 0) ∧
    openHandle mirS .h0 0x10000007 = some ⟨0x10000007, .h0, .h0, .station 7, [], false⟩ :=
  ⟨test_passes _ _ _ (by decide), by decide, by decide, Nat.le_of_eq List.length_replicate.symm, ⟨_, List.mem_singleton.mpr rfl, by decide⟩,
    test_passes _ _ _ (by decide), by decide, test_passes _ _ _ (by decide), by decide, by decide, by decide,
    test_passes _ _ _ (by decide), by decide⟩
theorem test_witness_channels : Passes (subS 2) (.eventSubscribe (hdOf 0x20000000 8) 0x8012 1) (hdOf 0x20000000 8) ∧
    selectorOk 0x8012 1 = true ∧ selectorOk 0x8012 2 = false ∧ (0x8012, (1 : Word)) ∉ List.replicate 2 (0x8000, (0 : Word)) ∧
    (0x8000, (0 : Word)) ∈ List.replicate 2 (0x8000, (0 : Word)) ∧
    256 ≤ (List.replicate 256 (0x8000, (0 : Word))).length ∧
    Passes (subS 1) (.eventUnsubscribe (hdOf 0x20000000 8) 0x8011 4095) (hdOf 0x20000000 8) ∧ selectorOk 0x8011 4095 = true ∧
    Passes tlmS (.telemetryStart (hdOf 0x40000000 4) 10) (hdOf 0x40000000 4) ∧
    Passes tlmS (.telemetryStart (hdOf 0x40000000 4) 60001) (hdOf 0x40000000 4) ∧
    tblGet (hub tlmS .h0).streams (handleIdx 0x40000000) = some aStream ∧
    Passes tlmS (.telemetryStop (hdOf 0x40000000 0)) (hdOf 0x40000000 0) ∧
    Passes readS (.counterConfig (hdOf 0x70000000 16) 0 0 0) (hdOf 0x70000000 16) ∧ (1 : BitVec 16).getLsbD 0 = true ∧
    ¬ ((1 < 16 ∧ (1 : BitVec 16).getLsbD 1 = true) ∨ ((1 = 0x20 ∨ 1 = 0x21) ∧ (1 : BitVec 16).getLsbD 0 = true)) ∧
    Passes readS (.counterConfig (hdOf 0x70000000 16) 0x20 0 0) (hdOf 0x70000000 16) ∧
    Passes readS (.counterClear (hdOf 0x70000000 0) 1 2) (hdOf 0x70000000 0) :=
  ⟨test_passes _ _ _ (by decide), by decide, by decide, by decide, by decide, Nat.le_of_eq List.length_replicate.symm, test_passes _ _ _ (by decide), by decide,
    test_passes _ _ _ (by decide), test_passes _ _ _ (by decide), by decide, test_passes _ _ _ (by decide),
    test_passes _ _ _ (by decide), by decide, by decide, test_passes _ _ _ (by decide), test_passes _ _ _ (by decide)⟩

def drvCfg : Cfg :=
  { tunedCfg with roundTicks := 1, drives := [{ drv := 2 }], reqChans := [{ ctx := 1, chan := 3, depth := 1, maxLen := 4 }],
                  stations := [{ twoPoints with svcLen := 16 }, { twoPoints with addr := 2, vital := true, svcLen := 16 }] }
def stampS (w : Word) (o : CreateBlock) : State := cmdS .service (fun g => { opened w o g with cfg := drvCfg }) id id
def fullSvc (w : Word) (o : CreateBlock) : State :=
  cmdS .service (fun g => { opened w o g with cfg := drvCfg, svc := [(1, { queue := List.replicate 4 ⟨false, 0, [], 4, .h0, 7, w, 0⟩ })] })
    id id
/-- With a round of 100 µs and the stamping at a boundary, 1 ms later is ten rounds on. -/
theorem test_first_round (s : State) (h : s.grp.round = 100) (hc : s.grp.cfg.roundTicks = 1) : FirstRound s 0 110 := by
  simp [FirstRound, roundTicks, h, hc]
theorem test_first_cycle (s : State) (h : s.grp.round = 100) (hc : s.grp.cfg.roundTicks = 1) : FirstCycle s vitalCtx 0 55 := by
  intro r hr
  have : r = 110 := by simp only [FirstRound, roundTicks, h, hc] at hr; simp at hr; omega
  subst this
  refine ⟨by decide, fun j hj => ?_⟩
  simp only [cycleRound, vitalCtx, periodRounds]; omega
theorem test_witness_stamped : FirstRound (stampS 0 (.other 0)) 0 110 ∧ FirstCycle (stampS 0 (.other 0)) vitalCtx 0 55 ∧
    0 < 100 * roundTicks (stampS 0 (.other 0)) ∧ ctxCfg? drvCfg 1 = some vitalCtx ∧ vitalCtx.vital = true ∧
    ctxCfg? drvCfg 2 = some plainCtx ∧ plainCtx.vital = false ∧ ctxCfg? drvCfg 3 = none ∧
    (∀ i ∈ [Instr.contextStart (hdOf 0 1) 1, .contextStop (hdOf 0 1) 1, .contextStop (hdOf 0 1) 2, .contextRestart (hdOf 0 1) 1,
      .contextStart (hdOf 0 1) 3, .tileReset (hdOf 0 1) 1, .tileReset (hdOf 0 1) 2, .driveReset (hdOf 0 1) 2, .driveReset (hdOf 0 1) 3],
      Passes (stampS 0 (.other 0)) i (hdOf 0 1)) ∧
    (∀ i ∈ [Instr.valueChange (hdOf 0 12) 1 1 [(3, 9)], .valueChange (hdOf 0 12) 1 1 [(3, 10)]],
      Passes (stampS 0 (.other 0)) i (hdOf 0 12)) ∧ changeOk drvCfg 1 (3, 9) = true ∧ changeOk drvCfg 1 (3, 10) = false ∧
    tileOf? 1 = some .t1 ∧ (∀ i ∈ [Instr.settingSet (hdOf 0 8) 1 10, .settingSet (hdOf 0 8) 1 9, .settingSet (hdOf 0 8) 4 10000],
      Passes (stampS 0 (.other 0)) i (hdOf 0 8)) ∧ settingKnown 1 = true ∧ settingInRange 1 10 = true ∧ settingInRange 1 9 = false ∧
    settingInRange 4 10000 = true := by
  refine ⟨test_first_round _ rfl rfl, test_first_cycle _ rfl rfl, by decide, by decide, rfl, by decide, rfl, by decide,
    fun i hi => ?_, fun i hi => ?_, by decide, by decide, by decide, fun i hi => ?_, by decide, by decide, by decide, by decide⟩
  all_goals
    simp only [List.mem_cons, List.not_mem_nil, or_false] at hi
    rcases hi with rfl | rfl | rfl | rfl | rfl | rfl | rfl | rfl | rfl <;> exact test_passes _ _ _ (by decide)
theorem test_witness_services :
    Passes (stampS 0x50000000 (.request 1 3)) (.request (hdOf 0x50000000 4) [1, 2, 3, 4]) (hdOf 0x50000000 4) ∧
    reqChanOf (stampS 0x50000000 (.request 1 3)) (hdOf 0x50000000 4) = some { ctx := 1, chan := 3, depth := 1, maxLen := 4 } ∧
    requestsAt (stampS 0x50000000 (.request 1 3)) 1 3 55 < 1 ∧
    Passes (stampS 0x10000001 (.station 1)) (.serviceRead (hdOf 0x10000001 4) 0 8) (hdOf 0x10000001 4) ∧
    svcLenOf (stampS 0x10000001 (.station 1)) (hdOf 0x10000001 4) = 16 ∧
    svcLenOf (stampS 0x10000003 (.station 3)) (hdOf 0x10000003 4) < 8 ∧
    svcWaiting (stampS 0x10000001 (.station 1)) (hdOf 0x10000001 4) < 4 ∧
    4 ≤ svcWaiting (fullSvc 0x10000001 (.station 1)) (hdOf 0x10000001 4) ∧
    Passes (fullSvc 0x10000001 (.station 1)) (.serviceRead (hdOf 0x10000001 4) 0 8) (hdOf 0x10000001 4) ∧
    Passes (stampS 0x10000001 (.station 1)) (.serviceWrite (hdOf 0x10000001 12) 0 (List.replicate 8 0)) (hdOf 0x10000001 12) ∧
    Passes (stampS 0x10000002 (.station 2)) (.serviceWrite (hdOf 0x10000002 5) 0 [0]) (hdOf 0x10000002 5) ∧
    (∃ x ∈ drvCfg.stations, x.addr = 2 ∧ x.vital = true) ∧ (∀ x ∈ drvCfg.stations, x.addr = 1 → x.vital = false) :=
  ⟨test_passes _ _ _ (by decide), by decide, by decide, test_passes _ _ _ (by decide), by decide, by decide, by decide, by decide,
    test_passes _ _ _ (by decide), test_passes _ _ _ (by decide), test_passes _ _ _ (by decide), by decide, by decide⟩

def hatS (n : Nat) (f : Lane → Lane) : State :=
  { cmdS .bench id id id with lanes :=
      ⟨f { fitLane .seated with hat := 5 }, { fitLane .seated with hat := 5 }, { fitLane .seated with hat := BitVec.ofNat 64 n }, {}⟩ }
def spareOk : State := cmdS .service (fun g => { g with holdoff := [] }) id id
def rotS : State := { spareOk with lanes := { spareOk.lanes with l3 := { fitLane .sparePaired with verified := true } } }
theorem test_witness_posted : Passes rotS (.rotateNow (hdOf 0 0)) (hdOf 0 0) ∧ rotationOk rotS = true ∧ rotS.grp.spare = some .l3 ∧
    rotationOk (cmdS .recovery id id id) = false ∧ Passes (cmdS .recovery id id id) (.rotateNow (hdOf 0 0)) (hdOf 0 0) ∧
    Passes svc (.laneSelfTest (hdOf 0 1) 4) (hdOf 0 1) ∧ Passes svc (.laneSelfTest (hdOf 0 1) 0) (hdOf 0 1) ∧
    testRefused svc .l0 = false ∧ testRefused (cmdS .service (fun g => { g with gst := .degraded }) id id) .l0 = true ∧
    (lane svc .l0).selfTest.running = false ∧ (lane svc .l0).fenced = false ∧ isSeated svc .l0 = true ∧
    (lane (cmdS .service id id fun L => { L with selfTest := { running := true } }) .l0).selfTest.running = true ∧
    testRefused (cmdS .service id id fun L => { L with selfTest := { running := true } }) .l0 = false ∧
    isSeated (cmdS .service (fun g => { g with spare := none }) id id) .l3 = false ∧
    testRefused (cmdS .service (fun g => { g with spare := none }) id id) .l3 = false ∧
    Passes (hatS 5 id) (.hatConfirm (hdOf 0 8) 5) (hdOf 0 8) ∧ 3 ≤ (seated (hatS 5 id)).length ∧
    (∀ k ∈ seated (hatS 5 id), (lane (hatS 5 id) k).hat = 5) ∧ oddHat (hatS 5 id) = none ∧
    (∃ k ∈ seated (hatS 6 id), (lane (hatS 6 id) k).hat ≠ 5) ∧ oddHat (hatS 6 id) = some .l2 ∧
    (lane (hatS 6 id) .l2).nv.retire = 0 ∧ (lane (hatS 6 id) .l2).fenced = false ∧ (hatS 6 id).grp.join = none ∧
    oddHat (hatS 6 fun L => { L with hat := 4 }) = none ∧
    (seated (pairS id id)).length < 3 ∧ Passes (cmdS .safe id id id) (.groupRestart (hdOf 0 0)) (hdOf 0 0) ∧
    Passes svc (.settingsSave (hdOf 0 0)) (hdOf 0 0) ∧ Passes svc (.settingsFactory (hdOf 0 1) 1) (hdOf 0 1) ∧
    Passes svc (.settingsFactory (hdOf 0 1) 2) (hdOf 0 1) :=
  ⟨test_passes _ _ _ (by decide), by decide, by decide, by decide, test_passes _ _ _ (by decide), test_passes _ _ _ (by decide),
    test_passes _ _ _ (by decide), by decide, by decide, by decide, by decide, by decide, by decide, by decide, by decide, by decide,
    test_passes _ _ _ (by decide), by decide, by decide, by decide, by decide, by decide, by decide, by decide, by decide, by decide,
    by decide, test_passes _ _ _ (by decide), test_passes _ _ _ (by decide), test_passes _ _ _ (by decide),
    test_passes _ _ _ (by decide)⟩

/-! A header that verifies: with the neutral point as key and as R, and S = 0, the signature equation holds of every message. -/

def Neutral (p : EdPoint) : Prop := p.x = 0 ∧ p.t = 0 ∧ p.y = p.z
theorem test_add_neutral (p q : EdPoint) (hp : Neutral p) (hq : Neutral q) : Neutral (edAdd p q) := by
  obtain ⟨px, pt, py⟩ := hp
  obtain ⟨qx, qt, qy⟩ := hq
  have hP : 0 < edP := by decide
  have e (a : Nat) : (a % edP + edP - a % edP) % edP = 0 := by rw [Nat.add_sub_cancel_left]; exact Nat.mod_self _
  have d : (p.z % edP * (q.z % edP) % edP + p.z % edP * (q.z % edP) % edP) % edP = 2 * p.z % edP * q.z % edP := by
    rw [← Nat.mul_mod, ← Nat.add_mod, Nat.mod_mul_mod, Nat.two_mul, Nat.add_mul]
  simp only [Neutral, edAdd, px, qx, pt, qt, py, qy, Nat.sub_zero, Nat.add_mod_right, Nat.add_zero, Nat.mul_zero,
    Nat.zero_mod, Nat.zero_mul, e, d, Nat.mod_mod, true_and]
theorem test_mul_neutral (k n : Nat) (p a : EdPoint) (hp : Neutral p) (ha : Neutral a) : Neutral (edMul k n p a) := by
  induction k generalizing n p a with
  | zero => exact ha
  | succ k ih =>
    refine ih _ _ _ (test_add_neutral _ _ hp hp) ?_
    split
    · exact test_add_neutral _ _ ha hp
    · exact ha
theorem test_mul_nothing (k : Nat) (p a : EdPoint) : edMul k 0 p a = a := by
  induction k generalizing p with
  | zero => rw [edMul]
  | succ k ih =>
    rw [edMul, Nat.zero_mod, if_neg Nat.zero_ne_one]
    exact ih _
def oneKey : List Byte := 1 :: List.replicate 31 0
theorem test_decodes : edDecode oneKey = some edZero := by
  have n : leNat oneKey = 1 := by decide
  have y : 1 % 2 ^ 255 = 1 := by decide
  have q : 1 / 2 ^ 255 = 0 := by decide
  have p : ¬ edP ≤ 1 := by decide
  have x : (1 * 1 + edP - 1) % edP = 0 := by decide
  have r : edRecoverX 1 0 = some 0 := by
    simp only [edRecoverX, if_neg p, x, Nat.zero_mul, Nat.zero_mod, if_true, Nat.zero_ne_one, if_false]
  simp only [edDecode, n, y, q, r, Option.map_some, Nat.zero_mul, Nat.zero_mod, edZero]
theorem test_verifies (m : List Byte) : edVerify oneKey m (oneKey ++ List.replicate 32 0) = true := by
  have e := test_decodes
  have r : (oneKey ++ List.replicate 32 0).take 32 = oneKey := by decide
  have n : leNat ((oneKey ++ List.replicate 32 0).drop 32) = 0 := by decide
  have z (k : Nat) : Neutral (edMul 256 k edZero edZero) := test_mul_neutral _ _ _ _ ⟨rfl, rfl, rfl⟩ ⟨rfl, rfl, rfl⟩
  have l : ¬ edL ≤ 0 := by decide
  have q (p : EdPoint) (hp : Neutral p) : edEq edZero p = true := by
    simp only [edEq, edZero, hp.1, hp.2.2, Nat.zero_mul, Nat.one_mul, Nat.mul_one, beq_self_eq_true, Bool.and_self]
  simp only [edVerify, r, n, e, if_neg l, test_mul_nothing]
  exact q _ (test_add_neutral edZero _ ⟨rfl, rfl, rfl⟩ (z _))

/-- An update header of one block for the bank hash of the unsealed lanes, signed with the neutral point (R468). -/
def ocHead : List Byte :=
  leBytes 4 0x4C55434F ++ [1, 0] ++ leBytes 2 256 ++ sliceBytes orderCode 0 16 ++ leBytes 4 0 ++ leBytes 2 1 ++ leBytes 2 0 ++
    leBytes 32 7 ++ List.replicate 64 0 ++ leBytes 4 1 ++ leBytes 4 32 ++ leBytes 8 0 ++ List.replicate 48 0
def ocHdr : List Byte := ocHead ++ (oneKey ++ List.replicate 32 0)
def openS : State :=
  let L : Lane := { fitLane .seated with nv := { bankA := { hash := some 7 } } }
  { cmdS .service (fun g => { g with cfg := { fbCfg with updateKey := 1 } }) id id with lanes := ⟨L, L, L, L⟩ }
theorem test_opens : openCause openS ocHdr = none := by
  have a : sliceBytes ocHdr 0 192 = ocHead := by decide +kernel
  have b : sliceBytes ocHdr 192 64 = oneKey ++ List.replicate 32 0 := by decide
  have k : leBytes 32 openS.grp.cfg.updateKey.toNat = oneKey := by decide
  simp only [openCause, a, b, k, test_verifies]
  decide +kernel
def blockSess (d : List Byte) : Session := { st := .download, handle := 0x60000000, expHash := sha256Num d, hdr := { maxBlock := 64, blocks := 1 } }
def blockS (d : List Byte) : State := sessS (blockSess d)
def anUpdate (w : Nat) : Hdr := hdOf 0x60000000 w
theorem test_witness_updates : Passes openS (.updateOpen (hdOf 0 256) ocHdr) (hdOf 0 256) ∧ openS.grp.session = none ∧
    openCause openS ocHdr = none ∧ openS.grp.handles.length < 16384 ∧ openCause openS [] = some 1 ∧
    (sessS { aSess .download with hdr := { raw := ocHdr } }).grp.session = some { aSess .download with hdr := { raw := ocHdr } } ∧
    Passes (sessS { aSess .download with hdr := { raw := ocHdr } }) (.updateOpen (hdOf 0 256) ocHdr) (hdOf 0 256) ∧
    (∀ d, (blockSess d).st = .download ∧ (0 = (blockSess d).next ∧ sha256Num d = (blockSess d).expHash)) ∧
    Passes (sessS (aSess .download)) (.updateBlock (anUpdate 16) 0 ⟨32, 0x40⟩ (List.replicate 32 0)) (anUpdate 16) ∧
    32 ≤ (blockSess []).hdr.maxBlock ∧ 1 ≠ (blockSess []).next ∧ (lane svc .l0).nv.retire = 0 ∧ (lane svc .l0).upd.missed = false ∧
    Passes (sessS (aSess .planned)) (.updateVerify (anUpdate 0)) (anUpdate 0) ∧ (aSess .planned).st ≠ .applying ∧
    Passes (sessS (aSess .applying)) (.updateVerify (anUpdate 0)) (anUpdate 0) ∧
    Passes (sessS (aSess .verified)) (.updatePlan (anUpdate 8) 20000) (anUpdate 8) ∧
    planOk (sessS (aSess .verified)) (aSess .verified).hdr 20000 = true ∧ (0 : Nat) < 100 + 200 ∧
    Passes (sessS (aSess .probation)) (.updateConfirm (anUpdate 0)) (anUpdate 0) ∧
    Passes (sessS (aSess .verified)) (.updateConfirm (anUpdate 0)) (anUpdate 0) ∧
    Passes (sessS (aSess .verified)) (.updateAbort (anUpdate 0)) (anUpdate 0) ∧
    Passes (sessS (aSess .probation)) (.updateAbort (anUpdate 0)) (anUpdate 0) :=
  ⟨test_passes _ _ _ (by decide +kernel), rfl, test_opens, by decide, by decide, rfl, test_passes _ _ _ (by decide +kernel),
    fun _ => ⟨rfl, rfl, rfl⟩, test_passes _ _ _ (by decide), by decide, by decide, rfl, rfl, test_passes _ _ _ (by decide),
    by decide, test_passes _ _ _ (by decide), test_passes _ _ _ (by decide), by decide +kernel, by decide,
    test_passes _ _ _ (by decide), test_passes _ _ _ (by decide), test_passes _ _ _ (by decide), test_passes _ _ _ (by decide)⟩

/-- A planned activation, before or after the change's cycle; a split spare with the tasks given. -/
def actS (a : DWord) : State := cmdS .service (fun g => { g with cfg := drvCfg, session := some { aSess .planned with act := a } }) id id
def splitTestS (ts : List SplitTask) : State :=
  { svc with lanes := { svc.lanes with l3 := { fitLane .spareSplit with split := ts } } }
theorem test_witness_bars_and_splits :
    (∀ a, (actS a).grp.session = some { aSess .planned with act := a }) ∧ (aSess .planned).st = .planned ∧ cycleRound vitalCtx 55 < (111 : DWord).toNat ∧
    (110 : DWord).toNat ≤ cycleRound vitalCtx 55 ∧
    (∀ ts ∈ [[mTask 1 .running], []], Passes (splitTestS ts) (.laneSelfTest (hdOf 0 1) 3) (hdOf 0 1) ∧
      testRefused (splitTestS ts) .l3 = false ∧ (lane (splitTestS ts) .l3).st = .spareSplit ∧
      (lane (splitTestS ts) .l3).splitPend = false ∧ (splitTestS ts).grp.spare = some .l3 ∧
      isSeated (splitTestS ts) .l3 = false ∧ (lane (splitTestS ts) .l3).selfTest.running = false ∧
      (lane (splitTestS ts) .l3).fenced = false) ∧
    (∃ x ∈ (lane (splitTestS [mTask 1 .running]) .l3).split, x.status = .running) ∧
    (∀ x ∈ (lane (splitTestS []) .l3).split, x.status ≠ .running) ∧
    Passes (actS 111) (.valueChange (hdOf 0 12) 1 1 [(3, 9)]) (hdOf 0 12) ∧
    Passes (actS 110) (.valueChange (hdOf 0 12) 1 1 [(3, 9)]) (hdOf 0 12) ∧
    Passes (blockS []) (.updateBlock (anUpdate 16) 0 ⟨32, 0x40⟩ (List.replicate 32 0)) (anUpdate 16) := by
  refine ⟨fun _ => rfl, rfl, by decide, by decide, fun ts h => ?_, by decide, by decide, test_passes _ _ _ (by decide),
    test_passes _ _ _ (by decide), test_passes _ _ _ (by decide)⟩
  simp only [List.mem_cons, List.not_mem_nil, or_false] at h
  rcases h with rfl | rfl <;>
    exact ⟨test_passes _ _ _ (by decide), by decide, rfl, rfl, rfl, by decide, rfl, rfl⟩

/-! ## The whole machine -/

theorem test_witness_machine : wfFb (.shli .l0 1 2 31) = true ∧ wfFb (.shli .l0 1 2 32) = false ∧
    (encodeFb (.shli .l0 1 2 31)).isSome = true ∧ decodeFbWord .l0 0x04000000 = some (.add .l0 0 0 0) ∧
    State.reset.pending = [] ∧ memWf ({} : Mem) = true ∧ (run.grp.join = none) := ⟨rfl, rfl, rfl, by decide, rfl, rfl, rfl⟩

/-! ## Commands that cannot be sent, and what a step answers -/

def badHdrs : List Hdr :=
  [{ hdOf 0 0 with flagRsv := 64 }, { hdOf 0 0 with version := 256 }, { hdOf 0 0 with status := 65536 }, hdOf 0 65536]
def badHeads : List FrameHead :=
  [{ aHead 1 1 1 with version := 256 }, aHead 256 1 1, { aHead 1 1 1 with segment := 256 }, { aHead 1 1 1 with flags := 256 },
   aHead 1 65536 1, aHead 1 1 8192, { aHead 1 1 1 with len := 65536 }]
def aSyn (h : FrameHead) : SyncFrame := { syncFrame 0 with head := h }
def aCold (h : FrameHead) : ColdStartFrame := { coldFrame 0 0 0 with head := h }
def anUp (h : FrameHead) : UplinkFrame := { uplinkOf 0 with head := h }
def aOp : SampleOp := { master := 4, priv := 2, ctx := 255, pc := 0, ib := 0, skid := 9 }
def aGlove : GloveReading := ⟨24000, [0, 0, 0], [0, 0, 0, 0, 0, 0], 0, 0, 0, [0, 0, 0], [], [], false⟩
theorem test_ill_formed_events : [Instr.outputPoint 0, .outputPoint 256, .cycleMark 0 0, .cycleMark 256 0, .cycleMark 1 8,
    .splitEntry .l0 [(112, true)] [], .selfTestComplete .l0 { testRes 0 0 true with march := [(112, true)] },
    .stagedStoreResume .l0 0x1FF, .stagedStoreResume .l0 0x680,
    .contributionReceived .l0 { aContrib .s1 0 with ctx := 0 } true, .contributionReceived .l0 { aContrib .s1 0 with ctx := 256 } true,
    .contributionReceived .l0 { aContrib .s1 0 with words := [(65536, 0)] } true, .contributionRetryTimeout .l0 0 0 .s1,
    .contributionRetryTimeout .l0 256 0 .s1, .comparisonDeadline .l0 0 0, .comparisonDeadline .l0 256 0,
    .accusationReceived .l0 .l0 .s1 false, .fenceMessageReceived .l1 .l1, .straitLinkFail .l2 .l2,
    .timeMeasurementReceived .l0 .l0 0, .scrubResultReceived .l0 .l0 0, .flashBlockFailure .l0 512 .erase,
    .thresholdCalibration .t0 (List.replicate 17 0), .bankCopyComplete .l0 .l0, .valuzScanComplete (.lane .l0) 4 [] true,
    .guardianWindowOpen .p0 8192, .guardianWindowClose .p0 8192, .slotStart .p0 ⟨8192, 0⟩, .spareReleaseTimeout 4096,
    .uplinkSequenceClear 4096, .serviceTimeout 4096].all (wellFormed · == false) = true := by decide
theorem test_ill_formed_tiles : [Instr.debounceChange .t0 16 true 0, .chatterWindowEnd .t0 16, .testPulseStart .t0 16,
    .testPulseEnd .t0 16 aGlove, .testPulseEnd .t0 0 { aGlove with mids := [0, 0, 0, 0] },
    .testPulseEnd .t0 0 { aGlove with subs := List.replicate 7 0 }, .testPulseEnd .t0 0 { aGlove with pairsMa := [0, 0, 0, 0] },
    .outputOverload .t0 16, .mittenSourceOverload .t0 16, .outputUnswitchable .t0 16 0 0, .couplerFailure .t0 16 0,
    .couplerFailure .t0 0 8, .couplerSpareSwitched .t0 16, .discrepancyLimit 65536, .driveStandstill 256, .driveTMax 256,
    .driveFbTimeout 256, .driveSpeedLost 256, .valuzGo (.lane .l0) 4, .valuzAbort (.lane .l0) 4, .registerWrite .h0 2 0,
    .registerWrite .h0 0x10000 0, .debugMemoryWrite .l0 2 0, .debugBreakpointSet .l0 2, .pld .l0 1 0 6, .pldx .l0 1 0 6,
    .pst .l0 1 0 3, .pstx .l0 1 0 3, .shri .l0 1 0 32, .sari .l0 1 0 32, .illegalInstruction .l0 0x04000000].all
      (wellFormed · == false) = true := by decide
theorem test_ill_formed_records : [(Instr.counterOverflow (.lane .l0) 16 aOp), .counterOverflow (.hub .h0) 8 aOp,
    .counterOverflow (.lane .l0) 0 { aOp with master := 5 }, .counterOverflow (.lane .l0) 0 { aOp with priv := 3 },
    .counterOverflow (.lane .l0) 0 { aOp with ctx := 256 },
    .counterOverflow (.lane .l0) 0 { aOp with master := 1, skid := 10 }].all (wellFormed · == false) = true ∧
    wellFormed (.counterOverflow (.lane .l0) 15 aOp) = true ∧ wellFormed (.testPulseEnd .t0 15 aGlove) = true := by decide
theorem test_ill_formed_body (b : List Byte) (h : b.length = 65536) : wellFormed (.downlinkFrameReceived .p0 ⟨aHead 3 1 1, b⟩) = false := by
  simp [wellFormed, h]
theorem test_ill_formed_frames : (badHeads.all fun h => !wellFormed (.syncReceived .p0 (aSyn h)) &&
      !wellFormed (.coldStartReceived .p0 (aCold h)) && !wellFormed (.uplinkReceived .p0 (anUp h)) &&
      !wellFormed (.claimReceived .p0 (anUp h)) && !wellFormed (.downlinkFrameReceived .p0 ⟨h, []⟩)) = true ∧
    [Instr.syncReceived .p0 { syncFrame 0 with state := 256 }, .syncReceived .p0 { syncFrame 0 with values := 256 },
      .coldStartReceived .p0 { coldFrame 0 0 0 with attempt := 256 },
      .coldStartReceived .p0 { coldFrame 0 0 0 with collisions := 256 }].all (wellFormed · == false) = true ∧
    wellFormed (.syncReceived .p0 (syncFrame 0)) = true ∧ wellFormed (.coldStartReceived .p0 (coldFrame 0 0 0)) = true := by decide
theorem test_ill_formed_headers : badHdrs.all (fun h =>
    [Instr.nop h, .identity h, .laneStatus h, .groupStatus h, .tileStatus h 0, .contextStatus h 0, .stationStatus h,
      .channelCreate h (.station 0), .channelDestroy h, .eventSubscribe h 0 0, .eventUnsubscribe h 0 0, .contextStart h 0,
      .contextStop h 0, .contextRestart h 0, .valueChange h 0 0 [], .valueRead h 0 0 [], .updateBlock h 0 ⟨0, 0⟩ [], .updateVerify h,
      .updatePlan h 0, .updateConfirm h, .updateAbort h, .updateStatus h, .counterConfig h 0 0 0, .counterRead h 0 0,
      .counterClear h 0 0, .telemetryStart h 0, .telemetryStop h, .serviceRead h 0 0, .serviceWrite h 0 [], .rotateNow h,
      .laneSelfTest h 0, .hatConfirm h 0, .groupRestart h, .tileReset h 0, .driveReset h 0, .settingGet h 0, .settingSet h 0 0,
      .settingsSave h, .settingsFactory h 0, .commandDoorbell .h0 0 [(0, h)]].all (wellFormed · == false)) = true := by decide
theorem test_ill_formed_commands : [Instr.tileStatus (hdOf 0 1) 256, .contextStatus (hdOf 0 1) 256,
    .eventSubscribe (hdOf 0 8) 65536 0, .eventUnsubscribe (hdOf 0 8) 65536 0, .contextStart (hdOf 0 1) 256,
    .contextStop (hdOf 0 1) 256, .contextRestart (hdOf 0 1) 256, .valueChange (hdOf 0 4) 256 0 [],
    .valueChange (hdOf 0 4) 0 256 (List.replicate 256 (0, 0)), .valueChange (hdOf 0 4) 0 1 [], .valueChange (hdOf 0 4) 0 1 [(2 ^ 32, 0)],
    .valueRead (hdOf 0 4) 256 0 [], .valueRead (hdOf 0 4) 0 256 (List.replicate 256 0), .valueRead (hdOf 0 4) 0 1 [],
    .valueRead (hdOf 0 4) 0 1 [2 ^ 32], .updateOpen (hdOf 0 1) [], .updateBlock (hdOf 0 16) (2 ^ 32) ⟨0, 0⟩ [],
    .updateBlock (hdOf 0 16) 0 ⟨1, 0⟩ [], .counterConfig (hdOf 0 16) 256 0 0, .counterRead (hdOf 0 0) 2 1,
    .counterRead (hdOf 0 0) 0 (2 ^ 64), .counterClear (hdOf 0 0) 2 1, .telemetryStart (hdOf 0 4) (2 ^ 32), .request (hdOf 0 1) [],
    .serviceRead (hdOf 0 4) 0 256, .laneSelfTest (hdOf 0 1) 256, .tileReset (hdOf 0 1) 256, .driveReset (hdOf 0 1) 256,
    .settingGet (hdOf 0 4) 65536, .settingSet (hdOf 0 8) 65536 0, .settingsFactory (hdOf 0 1) 256,
    .commandDoorbell .h0 0 [(65536, hdOf 0 0)], .commandDoorbell .h0 0 [(0x0101, hdOf 0 0)], .channelCreate (hdOf 0 8) (.station 65536), .channelCreate (hdOf 0 16) (.eventCh 0 256),
    .channelCreate (hdOf 0 20) (.mapping 256 0 0 []), .channelCreate (hdOf 0 20) (.mapping 0 (2 ^ 32) 0 []),
    .channelCreate (hdOf 0 28) (.mapping 0 0 0 [(2 ^ 32, 0)]), .channelCreate (hdOf 0 20) (.telemetry 256 0 0),
    .channelCreate (hdOf 0 20) (.telemetry 0 0 256), .channelCreate (hdOf 0 8) (.request 256 0),
    .channelCreate (hdOf 0 8) (.request 0 256), .channelCreate (hdOf 0 8) (.counters 256 0), .channelCreate (hdOf 0 4) (.other 1),
    .channelCreate (hdOf 0 4) (.other 256)].all (wellFormed · == false) = true := by decide
theorem test_well_formed : [Instr.outputPoint 255, .channelCreate (hdOf 0 8) (.station 65535), .channelCreate (hdOf 0 4) (.other 6),
    .updateOpen (hdOf 0 0) [], .request (hdOf 0 1) [7], .settingSet (hdOf 0 8) 65535 0, .pld .l0 1 0 5, .shli .l0 1 0 31,
    .illegalInstruction .l0 0].all wellFormed = true := by decide

/-! Single steps with results worked out from the rules. -/

def answer (i : Instr) (s : State) : Option (Nat × Option RingEntry) :=
  match step { s with pending := [i] } with
  | .next t => some ((hub t .h0).cmdCons.toNat, (hub t .h0).rpl.out.getLast?)
  | _ => none
theorem test_step_idles : step run = .next run := rfl
theorem test_step_powers_on : (match step { State.reset with pending := [.powerGood false ⟨true, true, true, true⟩ ⟨true, true⟩] } with
    | .next t => t.mod.pwrgd
    | _ => false) = true := by decide
theorem test_bad_value : answer (.tileStatus (hdOf 0 1) 2) svc =
    some (1, some { code := 0x0104, tag := 9, status := 0x0014, data := [] }) := by decide +kernel
theorem test_group_status : answer (.groupStatus (hdOf 0 0)) svc =
    some (1, some { code := 0x0103, tag := 9, status := 0, data := [0x20, 0x49, 0x80, 0, 0, 0, 0, 0] }) := by decide +kernel
theorem test_version : answer (.groupStatus { hdOf 0 0 with version := 0 }) svc =
    some (1, some { code := 0x0103, tag := 9, status := 0x0015, data := [] }) := by decide +kernel

/-! ## Witnesses of the clauses on background work, waits and wraps -/

/-- The lane L0 of a calm group, as changed: no earlier background work is due. -/
def calmL (f : Lane → Lane) : State := { calmS 2000000 with lanes := { (calmS 2000000).lanes with l0 := f (calmS 2000000).lanes.l0 } }
/-- A block other than block 0, as a lane holds it staged. -/
def aBlock : List Byte := leBytes 4 1 ++ List.replicate 60 0
def stagedL (bs : List (List Byte)) : State := calmL fun L => { L with nv := { staged := bs } }
def copyS (h : BitVec 256) : State :=
  { calmL (fun L => { L with nv := { bankA := { hash := some h } } }) with
    lanes := { (calmL fun L => { L with nv := { bankA := { hash := some h } } }).lanes with
      l3 := { fitLane .sparePaired with bgDone := [(0, 1000000)], imgOk := false } } }
theorem test_witness_background_updates : (lane (stagedL [aBlock]) .l0).journal = true ∧ bgTurn (stagedL [aBlock]) .l0 7 = true ∧
    (lane (stagedL [aBlock]) .l0).nv.staged = aBlock :: [] ∧ stagedOk (lane (stagedL [aBlock]) .l0).nv = true ∧
    bgTurn run .l0 7 = false ∧ bgTurn (copyS 0) .l3 7 = true ∧ copyFrom (copyS 0) .l3 .l0 = true ∧
    (lane (copyS 0) .l3).imgOk = false ∧ isSeated (copyS 0) .l3 = false ∧ (copyS 0).grp.session = none ∧
    copyOk (activeBank (lane (calmS 0) .l0).nv) = true :=
  ⟨rfl, by decide, rfl, by decide, by decide, by decide, by decide, rfl, by decide, rfl, by decide⟩
/-- Damage shows by hash: of two successive blocks the second is not the one whose hash the first carries, and a bank's content is
not that of its recorded hash. -/
theorem test_witness_damage : stagedOk { staged := [aBlock, [1]] } = false ∧ copyOk (activeBank (lane (copyS 1) .l0).nv) = false := by
  decide +kernel
theorem test_witness_telemetry_turn : tlmTurn (calmS 2000000) .l0 = true ∧ tlmTurn run .l0 = false :=
  ⟨by decide, by decide⟩
theorem test_witness_power_entry : mayRest (calmL fun L => { L with sigM := 1 }) .l0 = true ∧
    ¬ InStep (lane (calmL fun L => { L with sigM := 1 }) .l0) ∧
    (lane (calmL fun L => { L with dbg := { halted := true } }) .l0).dbg.halted = true ∧ mayRest (calmL fun L => { L with upd := { missed := true }, cur := some fbTask }) .l0 = false :=
  ⟨by decide, by unfold InStep; decide, rfl, by decide⟩
theorem test_witness_self_test_regions :
    let s : State := { calmS 1000000 with grp := { (calmS 1000000).grp with scrub := { (calmS 1000000).grp.scrub with region := 127 } } }
    112 ≤ s.grp.scrub.region ∧ s.grp.scrub.region < 128 ∧ s.grp.scrub.region = 127 ∧ s.grp.scrub.active = false ∧
    s.grp.scrub.nextAt ≤ s.grp.groupTime.toNat ∧ s.grp.join = none ∧ Runs s ∧ s.grp.firstBoundary = true ∧
    (∀ o ∈ seated s, bgTurn s o 2 = true) ∧ (∀ o, quadGet (⟨[], [], [], []⟩ : Quad (List Nat)) o = []) ∧
    .l0 ∈ runningLanes s ∧ (∃ o, o ∉ seated s) ∧ (∀ o ∈ seated s, InStep (lane s o)) :=
  ⟨by decide, by decide, rfl, rfl, by decide, rfl, ⟨by decide, by decide⟩, rfl, by decide, fun o => by cases o <;> rfl, by decide,
    ⟨.l3, by decide⟩, fun o _ => by cases o <;> (unfold InStep; decide)⟩
theorem test_witness_reports : InStep (lane busRun .l0) ∧ InStep (lane oddTime .l0) ∧ InStep (lane run .l1) ∧
    (busRun.grp.refMix = true → InStep (lane busRun .l0)) ∧ (lane run .l0).tb.resyncAt = none ∧ (lane run .l0).tb.ref ≠ some .seat ∧
    (lane (tickS fun x => { x with ref := some .seat }) .l0).tb.ref = some .seat ∧ 500 < (501 : Int).natAbs ∧ ¬ 500 < (500 : Int).natAbs :=
  ⟨by unfold InStep; decide, by unfold InStep; decide, by unfold InStep; decide, fun _ => by unfold InStep; decide, rfl, by decide, rfl,
    by decide, by decide⟩
theorem test_witness_hub_scans : (∃ c : Nat, c = 3 ∨ Config.hubScanOk 0 0 = true) ∧
    (Config.hubScanOk 0 64 = false → ¬ ((2 : Nat) = 3 ∨ Config.hubScanOk 0 64 = true)) ∧
    (hubChanUp (hub (valuzS {}) .h0) 3 = true) ∧ ({} : ValuzChan).st ≠ .busy ∧ ({ fold := 3 } : ValuzChan).fold = 3 :=
  ⟨⟨3, .inl rfl⟩, fun h e => e.elim (by decide) fun e => by rw [h] at e; exact absurd e (by decide), by decide, by decide, rfl⟩

/-! Counters: CHAIN is bit 23 of a lane counter's word, ENABLE bit 22, OVF_SAMPLE bit 24; class 9 with M selected counts ticks. -/

def ctrL (i : Nat) (x : PerfCtr) (ow : List (Nat × Option Nat)) (n : Nat) : State :=
  fullS id (fun L => { L with ctrs := { L.ctrs with ctr := L.ctrs.ctr.setIfInBounds i x, owed := ow, samples := n } }) id
def ctrH (x : PerfCtr) (ow : List Nat) : State :=
  { run with hubs := ⟨{ ctrs := (Vector.replicate 8 {}).setIfInBounds 6 x, ctrOwed := ow }, {}⟩ }
def anOp : SampleOp := { master := 0, priv := 2, ctx := 255, pc := 0, ib := 0, skid := 6 }
/-- Counter 14 of L0 chained into counter 15. -/
def chainS : State :=
  fullS id (fun L => { L with ctrs := { L.ctrs with ctr :=
    (L.ctrs.ctr.setIfInBounds 14 (wrapCtr 0x1C00000)).setIfInBounds 15 { value := 5, sel := 0x400000 } } }) id
theorem test_witness_wraps :
    (2 ≤ anOp.master ∨ anOp.skid ≤ 6) ∧ ¬ (2 ≤ ({ anOp with skid := 7 } : SampleOp).master ∨ ({ anOp with skid := 7 } : SampleOp).skid ≤ 6 ∨
      (inSplit (lane run .l0) = true ∧ ({ anOp with skid := 7 } : SampleOp).skid ≤ 9)) ∧
    inSplit (lane (splitS false []) .l3) = true ∧ (3, none) ∈ (lane (ctrL 0 {} [(3, none), (3, some 0)] 999) .l0).ctrs.owed ∧
    (3, some anOp.master) ∈ (lane (ctrL 0 {} [(3, none), (3, some 0)] 1000) .l0).ctrs.owed ∧
    999 < 1000 ∧ (∀ o ∈ (lane (ctrL 0 {} [(3, none)] 0) .l0).ctrs.owed, o.1 ≠ 2) ∧
    (lane chainS .l0).ctrs.ctr.toList[14]? = some (wrapCtr 0x1C00000) ∧ (wrapCtr 0x1C00000).sel.getLsbD 22 = true ∧
    (wrapCtr 0x1C00000).sel.getLsbD 24 = true ∧ (wrapCtr 0xC00000).sel.getLsbD 24 = false ∧
    chainedTo (lane chainS .l0).ctrs.ctr.toList laneBits 14 = false ∧ chainedTo (lane chainS .l0).ctrs.ctr.toList laneBits 15 = true ∧
    (lane chainS .l0).ctrs.ctr.toList[15]? = some { value := 5, sel := 0x400000 } ∧ (5 : BitVec 48) ≠ BitVec.allOnes 48 ∧
    (wrapCtr 0x400000).value = BitVec.allOnes 48 ∧ chainedTo (lane (ctrS 0x400000 0) .l0).ctrs.ctr.toList laneBits 16 = false ∧
    laneUnseen (lane (ctrL 0 { sel := 0x4000B9 } [] 0) .l0) 0 = true ∧ (lane (ctrL 0 { sel := 0x4000B9 } [] 0) .l0).st ≠ .retired :=
  ⟨by decide, by decide, by decide, by decide, by decide, by decide, by decide, by decide, by decide, by decide, by decide, by decide,
    by decide, by decide, by decide, rfl, by decide, by decide, by decide⟩
theorem test_witness_hub_wraps : (hub (ctrH {} [6]) .h0).ctrOwed.contains 6 = true ∧ (hub (ctrH {} []) .h0).ctrOwed.contains 6 = false ∧
    (hub (ctrH (wrapCtr 0x50000) []) .h0).ctrs.toList[6]? = some (wrapCtr 0x50000) ∧ (wrapCtr 0x50000).sel.getLsbD 16 = true ∧
    (wrapCtr 0x50000).sel.getLsbD 18 = true ∧ chainedTo (hub (ctrH (wrapCtr 0x50000) []) .h0).ctrs.toList hubBits 6 = false ∧
    chainedTo (hub (ctrH (wrapCtr 0x50000) []) .h0).ctrs.toList hubBits 7 = false ∧ hubUnseen (hub (ctrH { sel := 0x10009 } []) .h0) 6 = true :=
  ⟨by decide, by decide, by decide, by decide, by decide, by decide, by decide, by decide⟩

/-! The status mirror, snapshots, tiles. -/

def msgAt (r : DWord) : StatusMsg := { statusMsg run .l1 with round := r }
def mirrorS (a b : Option DWord) (sq : BitVec 32) (r : DWord) : State :=
  { run with hubs := ⟨{ fwRunning := true, mirror :=
      { msgs := ⟨a.map msgAt, b.map msgAt, b.map msgAt, b.map msgAt⟩, sq := sq, round := r } }, {}⟩ }
def allAt (s : State) (l : LaneId) : Bool :=
  (otherLanes l).all fun k => (quadGet (hub s .h0).mirror.msgs k).any fun m => m.round == s.grp.round
theorem test_witness_mirror : allAt (mirrorS none (some 100) 2 99) .l0 = true ∧ (hub (mirrorS none (some 100) 2 99) .h0).mirror.round ≠ 100 ∧
    allAt (mirrorS (some 100) none 2 99) .l0 = false ∧ (hub (mirrorS (some 100) (some 100) 2 100) .h0).mirror.round = 100 ∧
    (hub (mirrorS (some 99) (some 99) 2 98) .h0).mirror.round ≠ 99 ∧ (99 : DWord) < run.grp.round ∧
    (quadGet (hub (mirrorS (some 99) (some 99) 2 98) .h0).mirror.msgs .l0).isSome = true ∧ InStep (lane (mirrorS none none 0 0) .l0) :=
  ⟨by decide, by decide, by decide, rfl, by decide, by decide, rfl, by unfold InStep; decide⟩
theorem test_witness_snapshots : snapMiss .t0 { snapMiss := ⟨some 101, none⟩ } = some (aSnap 101).round ∧
    snapMiss .t0 {} ≠ some (aSnap 101).round ∧ laneSnap .t0 (lane run .l0) = none ∧ (aSnap 100).round ≠ nextRound run ∧
    laneSnap .t0 { snap0 := some (aSnap 100) } = some (aSnap 100) ∧
    ¬ Runs (fullS (fun g => { g with gst := .safe }) id id) ∧
    (seatDrive (tile (tileS framedT) .t0) .s1).frame ≠ none ∧ (tile (tileS framedT) .t0).fieldUp = true :=
  ⟨rfl, by decide, rfl, by decide, rfl, fun h => h.2 rfl, by decide, rfl⟩
theorem test_witness_calibration :
    let t (f : Tile → Tile) : State := { calmS 2000000 with tiles := ⟨f aTile, {}⟩ }
    (∀ l ∈ seated (t id), bgTurn (t id) l 1 = true) ∧ isInput (tile (t id) .t0) 0 = true ∧ (∃ l ∈ seated run, bgTurn run l 1 = false) :=
  ⟨by decide, by decide, ⟨.l0, by decide, by decide⟩⟩

def quietPort : Port := { listenColds [] with guard := { st := .listen } }
theorem test_witness_cold_choices : outbids (listenColds [(5, 0)]) 99 = false ∧ outbids { upPort .leading with settled := true } 101 = true ∧
    ({ upPort .leading with settled := true } : Port).settled = true ∧ (100 : DWord) < 101 ∧
    (∃ t, nextCold (portS quietPort) .p0 quietPort = some t ∧ (committed (portS quietPort) .p0 quietPort (t - 1)).isSome = true ∧
      committed (portS quietPort) .p0 quietPort t = none) ∧ quietPort.guard.st = .listen ∧ quietPort.guard.lastCold = none :=
  ⟨by decide, by decide, rfl, by decide, ⟨_, rfl, by rw [(test_committed _ _ _ _ rfl).2]; rfl, (test_committed _ _ _ _ rfl).1⟩, rfl, rfl⟩
/-- DARK_EN of an output is bit 30 of its word. -/
theorem test_witness_down_sources : sourceDown ({ lost := true } : Chan) = true ∧ sourceDown (chan (tile (tileS onTile) .t0) 2) = false ∧
    chMode (chWord aTile 2) = 3 ∧ chMode (chWord aTile 1) = 2 ∧ (chWord aTile 1).getLsbD 30 = true ∧
    (chWord { aTile with chWords := [1, 2] } 1).getLsbD 30 = false := ⟨by decide, by decide, by decide, by decide, by decide, by decide⟩

/-! Sessions, waits, and the ring of a hub on an empty queue. -/

theorem test_witness_sessions : (∀ x, (stampS 0 (.other 0)).grp.session = some x → x.st ≠ .planned) ∧
    (aSess .planned).st = .planned ∧ (closeSess openS.grp).handles.length < 16384 ∧
    16384 ≤ (closeSess { openS.grp with handles := manyHandles }).handles.length ∧
    (hub (setHub svc .h0 { hub svc .h0 with draining := some false }) .h0).draining = some false ∧ (hub svc .h0).draining = none :=
  ⟨fun _ h => absurd h (by simp [stampS, cmdS, fullS, opened, fullGrp]), rfl, by decide,
    by rw [show (closeSess { openS.grp with handles := manyHandles }).handles = manyHandles from rfl]; exact Nat.le_of_eq List.length_replicate.symm, rfl, rfl⟩
/-- A REQUEST command of 8 bytes waits in H0's ring. -/
def ringS : State := cmdS .service id (fun H => { H with ring := [⟨hdOf 0 0, 8, 1, 0x0103, some (.groupStatus (hdOf 0 0))⟩] }) id
theorem test_witness_ring : ringS.pending = [] ∧ (hub ringS .h0).ring = ⟨hdOf 0 0, 8, 1, 0x0103, some (.groupStatus (hdOf 0 0))⟩ :: [] ∧
    Fetched (setHub ringS .h0 { hub ringS .h0 with ring := [], due := true }) (hdOf 0 0) 8 1 ∧ (0x0103 : Nat) ≠ 0 ∧
    State.reset.mod.pwrgd = false ∧ (hub run .h0).ring = [] ∧ (hub run .h1).ring = [] :=
  ⟨rfl, rfl, test_fetched _ _ _ _ rfl (by decide), by decide, rfl, rfl, rfl⟩

/-! Bytes of the host's side: the worked REQUEST of R415, and registers of BAR0 (R419, R420). -/

theorem test_packet : commandOf ⟨.h0, 0, 0, 0, []⟩ ([0x01, 0x08, 0x00, 0x01, 0x40, 0x1F, 0x00, 0x00, 0x02, 0x00, 0x30, 0x50, 0x08, 0x00,
    0x00, 0x00, 1, 2, 3, 4, 5, 6, 7, 8] : List Byte) =
    some (.request { hub := .h0, tag := 0x1F40, handle := 0x50300002, fence := false, irq := false, flagRsv := 0, version := 1,
                     status := 0, plen := 8, us := 0 } [1, 2, 3, 4, 5, 6, 7, 8]) := by decide
theorem test_reply_bytes : headerBytes { code := 0x0103, tag := 0x1F40, data := [1, 2] } =
    [0x03, 0x01, 0x00, 0x01, 0x40, 0x1F, 0x00, 0x00, 0, 0, 0, 0, 2, 0, 0, 0] := by decide
theorem test_bar0_outside : bar0Read svc .h0 0xFFFC = some 0 ∧ bar0Read run .h0 0x100 = none := ⟨by decide, by decide⟩
end Sys2Proof.Tests
end

section
/-! SUPPORT. Byte lists made of little-endian fields: their length, and what is read where a field stands. -/

namespace Sys2Proof.Machine

open Sys2Proof

/-- Little-endian fields one after the other, each a width in bytes and a value. -/
def fieldBytes (fs : List (Nat × Nat)) : List Byte := fs.flatMap fun f => leBytes f.1 f.2

@[simp] theorem fieldBytes_nil : fieldBytes [] = [] := rfl

@[simp] theorem fieldBytes_cons (f : Nat × Nat) (fs : List (Nat × Nat)) :
    fieldBytes (f :: fs) = leBytes f.1 f.2 ++ fieldBytes fs := rfl

@[simp] theorem fieldBytes_append (fs gs : List (Nat × Nat)) : fieldBytes (fs ++ gs) = fieldBytes fs ++ fieldBytes gs :=
  List.flatMap_append

@[simp] theorem fieldBytes_length (fs : List (Nat × Nat)) : (fieldBytes fs).length = (fs.map (·.1)).sum := by
  induction fs with
  | nil => rfl
  | cons f fs ih => simp [ih]

/-- The number of a field, read at the place that the widths before it give. -/
theorem leAt_field {fs : List (Nat × Nat)} {ws : List Nat} (hw : fs.map (·.1) = ws) (i : Nat) {off w v : Nat}
    (hi : fs[i]? = some (w, v)) (ho : (ws.take i).sum = off) : leAt (fieldBytes fs) off w = v % 256 ^ w := by
  obtain ⟨hlt, hv⟩ := List.getElem?_eq_some_iff.mp hi
  refine leAt_eq _ (fieldBytes (fs.take i)) (fieldBytes (fs.drop (i + 1))) off w v ?_ (by simp [← ho, ← hw])
  calc fieldBytes fs = fieldBytes (fs.take i ++ fs[i] :: fs.drop (i + 1)) := by
        rw [← List.drop_eq_getElem_cons hlt, List.take_append_drop]
    _ = fieldBytes (fs.take i) ++ leBytes w v ++ fieldBytes (fs.drop (i + 1)) := by simp [hv]

/-- A number that fits its field is read back. -/
theorem leAt_field_fits {fs : List (Nat × Nat)} {ws : List Nat} (hw : fs.map (·.1) = ws) (i : Nat) {off w v : Nat}
    (fits : v < 256 ^ w) (hi : fs[i]? = some (w, v)) (ho : (ws.take i).sum = off) : leAt (fieldBytes fs) off w = v :=
  (leAt_field hw i hi ho).trans (Nat.mod_eq_of_lt fits)

theorem leBytes_zero (n : Nat) : leBytes n 0 = List.replicate n 0 := by
  induction n with
  | zero => rfl
  | succ n ih => simp [leBytes, ih, List.replicate_succ]

/-- A list that is too short for its slice is filled up with zeros. -/
theorem sliceBytes_fill (bs : List Byte) (n : Nat) (h : bs.length ≤ n) :
    sliceBytes bs 0 n = bs ++ leBytes (n - bs.length) 0 := by
  simp [sliceBytes, leBytes_zero, List.take_of_length_le h]

end Sys2Proof.Machine
end

section
/-! PROOF. The commands that only read: each is its row's checks around one reply, whose data a reply does not change. -/

namespace Sys2Proof.Machine

open Sys2Proof

/-! ## One reply -/

/-- A command whose body is one reply on every state that a reply alone tells from the one before, so that it changes
nothing else. -/
theorem reads_reply {s : State} {i : Instr} {hd : Hdr} {c : CmdRule} {lenOk : State → Bool} {f : State → State}
    {allowed : OpState → Bool} {st : Nat} {data : List Byte} (h : Passes s i hd)
    (run : ∀ s, exec i s = .next (whenOn s (hostCmd i c hd lenOk anySeal f)))
    (row : hostRow i = some ⟨hd, c.opcode, c.maxRep, c.ty, lenOk, allowed, false, c.items⟩)
    (allow : ∀ o, c.allowed o = allowed o) (body : ∀ t, OnlyReply hd s t → f t = answer t hd c.opcode st data) :
    Completes i s fun t => Replied s hd c.opcode hd.handle st data t ∧ OnlyReply hd s t := by
  refine answered_of h c lenOk anySeal f (fun r hr => ?_) st data fun t o => body t o.only
  obtain rfl : _ = r := Option.some.inj (row.symm.trans hr)
  exact ⟨run, rfl, rfl, rfl, rfl, fun _ => rfl, fun _ => rfl, allow⟩

/-- A command that replies OK with data that no reply changes. -/
theorem reads_data {s : State} {i : Instr} {hd : Hdr} {c : CmdRule} {lenOk : State → Bool} {data : State → List Byte}
    {allowed : OpState → Bool} (h : Passes s i hd)
    (run : ∀ s, exec i s = .next (whenOn s (hostCmd i c hd lenOk anySeal fun u => answer u hd c.opcode stOk (data u))))
    (row : hostRow i = some ⟨hd, c.opcode, c.maxRep, c.ty, lenOk, allowed, false, c.items⟩)
    (allow : ∀ o, c.allowed o = allowed o) (same : ∀ t, OnlyReply hd s t → data t = data s) :
    Answered s i hd c.opcode (data s) :=
  reads_reply h run row allow fun t x => by rw [same t x]; rfl

variable {s : State} {hd : Hdr}

/-- What a hub holds of the lanes' messages is not changed by a reply. -/
theorem OnlyReply.mirror {t : State} (x : OnlyReply hd s t) (h : HubId) : (hub t h).mirror = (hub s h).mirror :=
  x.readHub Hub.mirror (fun _ _ _ _ _ _ _ _ _ _ => rfl) h

/-! ## Identity and status -/

/-- The fields of the reply of IDENTITY, with the hub's firmware version. -/
def identityFields (fw : Word) (s : State) : List (Nat × Nat) :=
  [(11, leNat orderCode), (5, 0), (2, 0xB1), (4, fw.toNat), (4, Config.execVersion.toNat),
   (2, ((seated s).head?).elim Config.safetyMajor.toNat fun l => runMajor (lane s l).nv), (1, (isSealed s).toNat),
   (1, opCode s.mod.op), (8, s.grp.cfg.imageId.toNat), (8, s.grp.round.toNat), (4, s.grp.startCount), (14, 0)]

theorem identityFields_widths (fw : Word) (s : State) :
    (identityFields fw s).map (·.1) = [11, 5, 2, 4, 4, 2, 1, 1, 8, 8, 4, 14] := rfl

@[simp] theorem orderCode_length : orderCode.length = 11 := rfl

@[simp] theorem leBytes_orderCode : leBytes 11 (leNat orderCode) = orderCode := by decide

theorem identityBytes_eq (s : State) (h : HubId) :
    identityBytes s h = fieldBytes (identityFields (hub s h).fwVersion s) := by
  unfold identityBytes
  rw [sliceBytes_fill orderCode 16 (by simp), sliceBytes_fill _ 64 (by simp)]
  simp [identityFields]

/-- IDENTITY (R1, R408). -/
theorem identity_answered (h : Passes s (.identity hd) hd) :
    Answered s (.identity hd) hd 0x0101 (identityBytes s hd.hub) :=
  reads_data h (fun _ => rfl) rfl (fun _ => rfl) fun t x => by
    have fw : (hub t hd.hub).fwVersion = (hub s hd.hub).fwVersion :=
      x.readHub Hub.fwVersion (fun _ _ _ _ _ _ _ _ _ _ => rfl) hd.hub
    rw [identityBytes_eq, identityBytes_eq, fw, x.read (identityFields _) fun _ _ _ _ => rfl]

/-- LANE_STATUS (R64). -/
theorem laneStatus_answered (h : Passes s (.laneStatus hd) hd) :
    Answered s (.laneStatus hd) hd 0x0102 (laneWords (hub s hd.hub).mirror) :=
  reads_data h (fun _ => rfl) rfl (fun _ => rfl) fun t x => by rw [x.mirror]

/-- GROUP_STATUS (R104). -/
theorem groupStatus_answered (h : Passes s (.groupStatus hd) hd) :
    Answered s (.groupStatus hd) hd 0x0103 (leBytes 8 (hub s hd.hub).mirror.group.toNat) :=
  reads_data h (fun _ => rfl) rfl (fun _ => rfl) fun t x => by rw [x.mirror]

/-- TILE_STATUS of a tile that exists (R341). -/
theorem tileStatus_answered {n : Nat} {x : TileId} (hn : tileOf? n = some x) (h : Passes s (.tileStatus hd n) hd) :
    Answered s (.tileStatus hd n) hd 0x0104 (tileBytes (hub s hd.hub).mirror x) :=
  reads_reply h (fun _ => rfl) rfl (fun _ => rfl) fun t o => by rw [hn, o.mirror]; rfl

/-- TILE_STATUS of no tile (R341). -/
theorem tileStatus_refused {n : Nat} (hn : tileOf? n = none) (h : Passes s (.tileStatus hd n) hd) :
    Refused s (.tileStatus hd n) hd 0x0104 stBadValue :=
  reads_reply h (fun _ => rfl) rfl (fun _ => rfl) fun t o => by rw [hn]

/-- CONTEXT_STATUS (R131; before any message and of a context not reported, log 27). -/
theorem contextStatus_answered {n : Nat} (h : Passes s (.contextStatus hd n) hd) :
    Answered s (.contextStatus hd n) hd 0x0105 (leBytes 8 (ctxWordHeld (hub s hd.hub).mirror n).toNat) :=
  reads_data h (fun _ => rfl) rfl (fun _ => rfl) fun t x => by rw [x.mirror]

/-- STATION_STATUS (R304). -/
theorem stationStatus_answered (h : Passes s (.stationStatus hd) hd) :
    Answered s (.stationStatus hd) hd 0x0106
      (leBytes 8 (tblGetD (hub s hd.hub).mirror.stns (handleIdx hd.handle) (stnWordReset (handleIdx hd.handle))).toNat) :=
  reads_data h (fun _ => rfl) rfl (fun _ => rfl) fun t x => by rw [x.mirror]

/-! ## Values and settings -/

/-- The running image is not changed by a reply. -/
theorem OnlyReply.grp_cfg {t : State} (x : OnlyReply hd s t) : t.grp.cfg = s.grp.cfg :=
  x.read (fun u => u.grp.cfg) fun _ _ _ _ => rfl

/-- VALUE_READ of a context that the image does not have (R408). -/
theorem valueRead_noContext {n k : Nat} {ix : List Nat} (hc : ctxCfg? s.grp.cfg n = none)
    (h : Passes s (.valueRead hd n k ix) hd) : Refused s (.valueRead hd n k ix) hd 0x0402 stBadHandle :=
  reads_reply h (fun _ => rfl) rfl (fun o => by cases o <;> rfl) fun t x => by dsimp only; rw [x.grp_cfg, hc]

/-- The entries of some indices are as many as the indices exactly when each index has one. -/
theorem tunables_length (cfg : Cfg) (n : Nat) (is : List Nat) :
    (is.filterMap (tunable? cfg n)).length ≠ is.length ↔ ∃ k ∈ is, tunable? cfg n k = none := by
  simp [List.filterMap_length_eq_length]

/-- VALUE_READ of no value, of more than 32 or of an index without an entry (R408). -/
theorem valueRead_badValue {n k : Nat} {ix : List Nat} {c : CtxCfg} (hc : ctxCfg? s.grp.cfg n = some c)
    (bad : k = 0 ∨ 32 < k ∨ ∃ i ∈ ix.take k, tunable? s.grp.cfg n i = none)
    (h : Passes s (.valueRead hd n k ix) hd) : Refused s (.valueRead hd n k ix) hd 0x0402 stBadValue := by
  refine reads_reply h (fun _ => rfl) rfl (fun o => by cases o <;> rfl) fun t x => ?_
  rw [← tunables_length] at bad
  dsimp only
  rw [x.grp_cfg, hc]
  exact if_pos (by simpa [or_assoc] using bad)

/-- A value that every seat holds is agreed once there are two seats. -/
theorem readValue_agreed {c : CtxCfg} {u : Tunable} {v : Word} (seats : 2 ≤ (seated s).length)
    (all : ∀ l ∈ seated s, heldValue (lane s l) c u = v) : readValue s c u = (v, true) := by
  have same : ((seated s).map fun l => heldValue (lane s l) c u) = List.replicate (seated s).length v :=
    List.map_eq_replicate_iff.mpr all
  have found : (List.replicate (seated s).length v).find?
      (fun w => 2 ≤ ((List.replicate (seated s).length v).filter (· == w)).length) = some v := by
    rw [List.find?_replicate, if_neg (by omega)]
    simp [seats]
  simp only [readValue, same, found]

/-- VALUE_READ of one value that the seats agree on (R408). -/
theorem valueRead_one {n k : Nat} {ix : List Nat} {c : CtxCfg} {u : Tunable} {v : Word}
    (hc : ctxCfg? s.grp.cfg n = some c) (hk : ix.take 1 = [k]) (hu : tunable? s.grp.cfg n k = some u)
    (agreed : readValue s c u = (v, true)) (h : Passes s (.valueRead hd n 1 ix) hd) :
    Answered s (.valueRead hd n 1 ix) hd 0x0402 (leBytes 4 v.toNat ++ leBytes 4 1) := by
  refine reads_reply h (fun _ => rfl) rfl (fun o => by cases o <;> rfl) fun t x => ?_
  have same : readValue t c u = (v, true) := (x.read (fun w => readValue w c u) fun _ _ _ _ => rfl).trans agreed
  dsimp only
  rw [x.grp_cfg, hc, hk]
  simp [hu, same, agreeWord, stOk]

/-- SETTING_GET of an id that names no setting (R408). -/
theorem settingGet_unknown {n : Nat} (hn : settingKnown n = false) (h : Passes s (.settingGet hd n) hd) :
    Refused s (.settingGet hd n) hd 0x0A01 stBadValue :=
  reads_reply h (fun _ => rfl) rfl (fun _ => rfl) fun t x => by simp [hn]

/-- The saved value of a setting that SETTING_GET shows: that of the lane whose settings count (R412, R514; log 148). -/
def savedShown (s : State) (n : Nat) : Option Word := (savedLane s).bind fun l => savedValue s l n

theorem OnlyReply.runningValue {t : State} (x : OnlyReply hd s t) (h : HubId) (n : Nat) :
    runningValue t h n = runningValue s h n := by
  have m : (hub t h).moderation = (hub s h).moderation := x.readHub Hub.moderation (fun _ _ _ _ _ _ _ _ _ _ => rfl) h
  have g : t.grp.settings = s.grp.settings := x.read (fun u => u.grp.settings) fun _ _ _ _ => rfl
  unfold Machine.runningValue
  rw [m, g]

/-- SETTING_GET (R408, R412). -/
theorem settingGet_answered {n : Nat} (hn : settingKnown n = true) (h : Passes s (.settingGet hd n) hd) :
    Answered s (.settingGet hd n) hd 0x0A01
      (leBytes 4 (runningValue s hd.hub n).toNat ++ leBytes 4 ((savedShown s n).getD 0).toNat ++
        leBytes 4 (factoryValue n).toNat ++ leBytes 4 (savedShown s n).isSome.toNat) := by
  refine reads_reply h (fun _ => rfl) rfl (fun _ => rfl) fun t x => ?_
  have saved : savedShown t n = savedShown s n := x.read (fun u => savedShown u n) fun _ _ _ _ => rfl
  rw [← saved, ← x.runningValue]
  simp [hn, savedShown, stOk]

/-! ## Updates -/

/-- KiB of new content that every lane has written (R490). -/
def kibWritten (s : State) (x : Session) : Nat :=
  ((liveLanes s).map fun l => writtenLen x.hdr (lane s l) / 1024).foldl min (x.hdr.toLen / 1024)

/-- The fields of the reply of UPDATE_STATUS (R490). -/
def updateFields (s : State) (x : Session) : List (Nat × Nat) :=
  [(1, sessCode x.st), (1, laneUpdState (lane s .l0)), (1, laneUpdState (lane s .l1)), (1, laneUpdState (lane s .l2)),
   (1, laneUpdState (lane s .l3)), (3, 0), (4, x.next), (4, kibWritten s x),
   (8, if x.st = .planned then x.act.toNat else 0), (2, x.cause), (1, x.hdr.revertOk.toNat), (5, 0)]

theorem updateFields_widths (s : State) (x : Session) :
    (updateFields s x).map (·.1) = [1, 1, 1, 1, 1, 3, 4, 4, 8, 2, 1, 5] := rfl

theorem updateStatusBytes_eq (s : State) (x : Session) : updateStatusBytes s x = fieldBytes (updateFields s x) := by
  simp [updateStatusBytes, updateFields, kibWritten, allLanes, leBytes_zero, List.replicate_succ]

/-- UPDATE_STATUS of a session (R490). -/
theorem updateStatus_answered {x : Session} (hx : s.grp.session = some x) (h : Passes s (.updateStatus hd) hd) :
    Answered s (.updateStatus hd) hd 0x0507 (updateStatusBytes s x) := by
  refine reads_reply h (fun _ => rfl) rfl (fun _ => rfl) fun t o => ?_
  have sess : t.grp.session = some x := (o.read (fun u => u.grp.session) fun _ _ _ _ => rfl).trans hx
  have same : updateStatusBytes t x = updateStatusBytes s x := o.read (fun u => updateStatusBytes u x) fun _ _ _ _ => rfl
  rw [sess, ← same]; rfl

/-- UPDATE_STATUS without a session (R490). -/
theorem updateStatus_refused (hx : s.grp.session = none) (h : Passes s (.updateStatus hd) hd) :
    Refused s (.updateStatus hd) hd 0x0507 stNotPermitted :=
  reads_reply h (fun _ => rfl) rfl (fun _ => rfl) fun t o => by
    rw [(o.read (fun u => u.grp.session) fun _ _ _ _ => rfl).trans hx]

/-! ## Counters -/

theorem OnlyReply.setOf {t : State} (x : OnlyReply hd s t) : setOf t hd = setOf s hd :=
  x.read (fun u => Machine.setOf u hd) fun _ _ _ _ => rfl

@[simp] theorem laneOf?_laneNum (l : LaneId) : laneOf? (laneNum l) = some l := by cases l <;> rfl

/-- COUNTER_READ of a set of a lane (R461). -/
theorem counterRead_lane {before after : Nat} {l : LaneId} {mask : BitVec 16} (hs : setOf s hd = some (laneNum l, mask, false))
    (h : Passes s (.counterRead hd before after) hd) :
    Answered s (.counterRead hd before after) hd 0x0602
      (leBytes 8 before ++ leBytes 8 after ++ maskBytes (ctrsOf s (laneNum l)) mask) := by
  refine reads_reply h (fun _ => rfl) rfl (fun _ => rfl) fun t x => ?_
  have same : ctrsOf t (laneNum l) = ctrsOf s (laneNum l) := by
    unfold ctrsOf
    simp only [laneOf?_laneNum]
    exact x.read (fun u => (lane u l).ctrs.ctr.toList.zipIdx.map fun y =>
      { y.1 with value := laneCtrValue u.free (lane u l) y.2 }) fun _ _ _ _ => rfl
  rw [x.setOf, hs]
  simp [same, stOk]

/-- COUNTER_READ of a set of a lost hub that was adopted (R461, R464). -/
theorem counterRead_adopted {before after so : Nat} {mask : BitVec 16} (hs : setOf s hd = some (so, mask, true))
    (h : Passes s (.counterRead hd before after) hd) :
    Refused s (.counterRead hd before after) hd 0x0602 stNotPermitted :=
  reads_reply h (fun _ => rfl) rfl (fun _ => rfl) fun t x => by rw [x.setOf, hs]; rfl

/-- The entries of a list with their numbers, by number. -/
theorem zipIdx_eq_map_range {α : Type} (d : α) (xs : List α) :
    xs.zipIdx = (List.range xs.length).map fun k => ((xs[k]?).getD d, k) := by
  refine List.ext_getElem (by simp) fun k h _ => ?_
  have : k < xs.length := by simpa using h
  simp [this]

/-- The counters of a mask, by number (R461). -/
theorem maskBytes_eq (cs : List PerfCtr) (mask : BitVec 16) :
    maskBytes cs mask = (List.range cs.length).flatMap fun k =>
      if mask.getLsbD k then ctrBytes k ((cs[k]?).getD {}) else [] := by
  rw [maskBytes, zipIdx_eq_map_range {} cs, List.flatMap_map]

/-- The counters of a lane as a set of it shows them (R461; log 80). -/
theorem maskBytes_lane (s : State) (l : LaneId) (mask : BitVec 16) :
    maskBytes (ctrsOf s (laneNum l)) mask = (List.range 16).flatMap fun k =>
      if mask.getLsbD k = true then
        leBytes 1 k ++ leBytes 1 (((lane s l).ctrs.ctr.toList[k]?).getD {}).ovf.toNat ++
          leBytes 6 (laneCtrValue s.free (lane s l) k).toNat
      else [] := by
  rw [maskBytes_eq]
  have len : (ctrsOf s (laneNum l)).length = 16 := by simp [ctrsOf]
  rw [len]
  rw [List.flatMap_def, List.flatMap_def]
  refine congrArg List.flatten (List.map_congr_left fun k hk => ?_)
  have hk : k < 16 := List.mem_range.mp hk
  simp [ctrsOf, ctrBytes, hk]

/-- A counter of events that commands show reads as it stands (log 80). -/
theorem laneCtrValue_seen {L : Lane} {n : Nat} (h : laneUnseen L n = false) (free : Nat) :
    laneCtrValue free L n = (((L.ctrs.ctr.toList)[n]?).getD {}).value := by
  simp [laneCtrValue, h]

/-! ## The statement -/

/-- What IDENTITY shows, field by field (R1, R408). -/
theorem identity_layout (s : State) (h : HubId) :
    let d := identityBytes s h
    d.length = 64 ∧ d.take 11 = orderCode ∧ leAt d 11 5 = 0 ∧ leAt d 16 2 = 0xB1 ∧ leAt d 28 1 = (isSealed s).toNat ∧
      leAt d 29 1 = opCode s.mod.op ∧ leAt d 30 8 = s.grp.cfg.imageId.toNat ∧ leAt d 38 8 = s.grp.round.toNat ∧
      leAt d 46 4 = s.grp.startCount % 2 ^ 32 ∧ leAt d 50 14 = 0 := by
  intro d
  have e : d = fieldBytes (identityFields (hub s h).fwVersion s) := identityBytes_eq s h
  have ws := identityFields_widths (hub s h).fwVersion s
  have bit : (isSealed s).toNat < 256 ^ 1 := Nat.lt_of_lt_of_le (Bool.toNat_lt _) (by decide)
  have op : opCode s.mod.op < 256 ^ 1 := by cases s.mod.op <;> decide
  rw [e]
  refine ⟨by simp [ws], ?_, leAt_field_fits ws 1 (by decide) rfl rfl, leAt_field_fits ws 2 (by decide) rfl rfl,
    leAt_field_fits ws 6 bit rfl rfl, leAt_field_fits ws 7 op rfl rfl, leAt_field_fits ws 8 s.grp.cfg.imageId.isLt rfl rfl,
    leAt_field_fits ws 9 s.grp.round.isLt rfl rfl, leAt_field ws 10 rfl rfl, leAt_field_fits ws 11 (by decide) rfl rfl⟩
  rw [identityFields, fieldBytes_cons, leBytes_orderCode]
  exact List.take_left' rfl

/-- What UPDATE_STATUS shows of a session, field by field (R490). -/
theorem updateStatus_layout (s : State) (x : Session) :
    let d := updateStatusBytes s x
    d.length = 32 ∧ leAt d 0 1 = sessCode x.st ∧ leAt d 8 4 = x.next % 2 ^ 32 ∧ leAt d 24 2 = x.cause % 2 ^ 16 ∧
      (x.st = .planned → leAt d 16 8 = x.act.toNat) ∧ (x.st ≠ .planned → leAt d 16 8 = 0) ∧
      ((lane s .l0).nv.retire ≠ 0 → leAt d 1 1 = 6) := by
  intro d
  have e : d = fieldBytes (updateFields s x) := updateStatusBytes_eq s x
  have ws := updateFields_widths s x
  have code : sessCode x.st < 256 ^ 1 := by cases x.st <;> decide
  have act : leAt (fieldBytes (updateFields s x)) 16 8 = (if x.st = .planned then x.act.toNat else 0) % 256 ^ 8 :=
    leAt_field ws 8 rfl rfl
  have l0 : leAt (fieldBytes (updateFields s x)) 1 1 = laneUpdState (lane s .l0) % 256 ^ 1 := leAt_field ws 1 rfl rfl
  rw [e, act, l0]
  refine ⟨by simp [ws], leAt_field_fits ws 0 code rfl rfl, leAt_field ws 6 rfl rfl, leAt_field ws 9 rfl rfl,
    fun h => ?_, fun h => ?_, fun h => ?_⟩
  · exact (congrArg (· % 256 ^ 8) (if_pos h)).trans (Nat.mod_eq_of_lt x.act.isLt)
  · exact (congrArg (· % 256 ^ 8) (if_neg h)).trans (Nat.zero_mod _)
  · exact congrArg (· % 256 ^ 1) (show laneUpdState (lane s .l0) = 6 from if_pos h)

theorem settingKnown_iff (n : Nat) : settingKnown n = true ↔ (1 ≤ n ∧ n ≤ 4) ∨ (0x100 ≤ n ∧ n ≤ 0x11F) := by
  simp [settingKnown]

/-- Settles O51: each command's row leaves one reply, and what the reply says is read off the state before it. -/
theorem readCommands : Obligations.ReadCommands := by
  intro s hd t n ix before after c v x mask l M pass
  refine ⟨fun h => ?_, laneStatus_answered, groupStatus_answered, fun h => ⟨?_, ?_, fun ht => ?_⟩, contextStatus_answered,
    fun h w hw => ?_, fun h => ⟨fun hc => valueRead_noContext hc h, fun hc => ⟨fun bad => valueRead_badValue hc bad h, ?_⟩⟩,
    fun h => ⟨fun hn => ?_, fun hn => ?_⟩, fun h hx => ⟨_, updateStatus_answered hx h, updateStatus_layout s x⟩,
    fun h hx => updateStatus_refused hx h, fun h hs => ?_, fun _ hn => laneCtrValue_seen hn s.free,
    fun h hs => counterRead_adopted hs h⟩
  case refine_1 =>
    obtain ⟨len, code, pad, rev, bit, op, rest⟩ := identity_layout s hd.hub
    exact ⟨_, identity_answered h, len, code, pad, rev, bit, op.trans (by cases s.mod.op <;> rfl), rest⟩
  case refine_2 => rintro rfl; exact tileStatus_answered rfl h
  case refine_3 => rintro rfl; exact tileStatus_answered rfl h
  case refine_4 =>
    refine tileStatus_refused ?_ h
    obtain ⟨m, rfl⟩ : ∃ m, t = m + 2 := ⟨_, (Nat.sub_add_cancel ht).symm⟩
    rfl
  case refine_5 =>
    have e : tblGetD (hub s hd.hub).mirror.stns (handleIdx hd.handle) (stnWordReset (handleIdx hd.handle)) = w :=
      congrArg (fun o : Option DWord => o.getD _) hw
    exact e ▸ stationStatus_answered h
  case refine_6 =>
    rintro rfl k u hk hu _ all seats
    exact valueRead_one hc hk hu (readValue_agreed seats all) h
  case refine_7 => exact settingGet_unknown (Bool.eq_false_iff.mpr (mt (settingKnown_iff n).mp hn)) h
  case refine_8 =>
    refine ⟨savedShown s n, settingGet_answered ((settingKnown_iff n).mpr hn) h, fun a ha => ?_⟩
    rw [savedShown, Option.mem_def.mp ha, Option.bind_some]
  case refine_9 => exact maskBytes_lane s l mask ▸ counterRead_lane hs h

end Sys2Proof.Machine
end

section
/-! SUPPORT. Rings as they are consumed and drained, and the parts of a hub and of the state that this leaves. -/

namespace Sys2Proof.Machine

open Sys2Proof

/-! ## One hub changed -/

theorem peerHub_ne (h : HubId) : peerHub h ≠ h := by cases h <;> decide

@[simp] theorem hub_setHub_peer (s : State) (h : HubId) (H : Hub) :
    hub (setHub s h H) (peerHub h) = hub s (peerHub h) := by
  rw [hub_setHub, if_neg (peerHub_ne h)]

@[simp] theorem hub_modHub_peer (s : State) (h : HubId) (f : Hub → Hub) :
    hub (modHub s h f) (peerHub h) = hub s (peerHub h) := hub_setHub_peer s h _

@[simp] theorem hub_setAlive_other (s : State) (h : HubId) (v : Bool) : hub (setAlive s (peerHub h) v) h = hub s h := by
  rw [setAlive, hub_modHub, if_neg (peerHub_ne h).symm]

@[simp] theorem setAlive_peerAlive (s : State) (h : HubId) (v : Bool) : (hub (setAlive s h v) h).peerAlive = v := by
  rw [setAlive, hub_modHub_same]
  split
  · assumption
  · rw [raiseVec_eq]

@[simp] theorem setHub_hub (s : State) (h : HubId) : setHub s h (hub s h) = s := by cases h <;> rfl

theorem modHub_setHub (s : State) (h : HubId) (H : Hub) (f : Hub → Hub) :
    modHub (setHub s h H) h f = setHub s h (f H) := by cases h <;> rfl

theorem OnlyHubs.refl (s : State) : OnlyHubs s s := rfl

theorem OnlyHubs.trans {s t u : State} (a : OnlyHubs s t) (b : OnlyHubs t u) : OnlyHubs s u := by
  unfold OnlyHubs at *; rw [b, a]

theorem onlyHubs_setHub (s : State) (h : HubId) (H : Hub) : OnlyHubs s (setHub s h H) := by cases h <;> rfl

theorem onlyHubs_modHub (s : State) (h : HubId) (f : Hub → Hub) : OnlyHubs s (modHub s h f) := onlyHubs_setHub s h _

theorem onlyHubs_setAlive (s : State) (h : HubId) (v : Bool) : OnlyHubs s (setAlive s h v) := onlyHubs_modHub s h _

/-- The group, the lanes, the tiles and the module stand where only hubs change. -/
theorem OnlyHubs.fields {s t : State} (x : OnlyHubs s t) :
    t.grp = s.grp ∧ t.lanes = s.lanes ∧ t.tiles = s.tiles ∧ t.mod = s.mod := by
  rw [x]; exact ⟨rfl, rfl, rfl, rfl⟩

/-! ## Rings (R391-R397) -/

/-- Held events that are written keep the consumed index and the drop count, and every entry that stands. -/
theorem ringFlushHeld_keeps (es : List RingEntry) (r : Ring) :
    (ringFlushHeld r es).cons = r.cons ∧ (ringFlushHeld r es).drops = r.drops ∧ r.out ⊆ (ringFlushHeld r es).out := by
  induction es generalizing r with
  | nil => exact ⟨rfl, rfl, fun _ h => h⟩
  | cons e es ih =>
    unfold ringFlushHeld
    split
    · obtain ⟨c, d, o⟩ := ih (ringWrite r e)
      exact ⟨c, d, fun x hx => o (by simp [ringWrite, hx])⟩
    · exact ⟨rfl, rfl, fun _ h => h⟩

/-- Draining a ring leaves the consumed index. -/
@[simp] theorem ringDrain_cons (r : Ring) (round : DWord) : (ringDrain r round).cons = r.cons := by
  unfold ringDrain
  split
  · exact (ringFlushHeld_keeps ..).1
  · dsimp only
    split
    · exact (ringFlushHeld_keeps ..).1
    · rfl

/-- A ring with drops and room for one unit gets the EVENTS_LOST event with the count (R397, R411). -/
theorem ringDrain_lost {r : Ring} (round : DWord) (hd : r.drops ≠ 0) (room : ringRoom r 1 = true) :
    (ringDrain r round).drops = 0 ∧ lostEntry round r.drops ∈ (ringDrain r round).out := by
  have unit : entryUnits (lostEntry round r.drops) = 1 := by simp [entryUnits, lostEntry]
  unfold ringDrain
  rw [if_neg hd]
  dsimp only
  rw [unit, if_pos room]
  obtain ⟨_, d, o⟩ := ringFlushHeld_keeps (ringWrite { r with drops := 0 } (lostEntry round r.drops)).held
    (ringWrite { r with drops := 0 } (lostEntry round r.drops))
  exact ⟨d, o (by simp [ringWrite])⟩

/-! ## A hub whose event rings are drained -/

/-- What looks at no part of a hub that a reply touches reads the same. -/
theorem ReplyPart.read {H K : Hub} {β : Type} (x : ReplyPart H K) (f : Hub → β)
    (hf : ∀ H c r k o w v p g u,
      f { H with cmdCons := c, rpl := r, ctrs := k, ctrOwed := o, shadowOut := w, vecs := v, pools := p, gated := g, due := u } = f H) :
    f K = f H := by
  rw [x]; exact hf ..

/-- The second hub is the first but for its event rings and what a reply touches. -/
def DrainPart (H K : Hub) : Prop :=
  K = { H with sev := K.sev, evch := K.evch, peerEvch := K.peerEvch, cmdCons := K.cmdCons, rpl := K.rpl, ctrs := K.ctrs,
               ctrOwed := K.ctrOwed, shadowOut := K.shadowOut, vecs := K.vecs, pools := K.pools, gated := K.gated, due := K.due }

theorem DrainPart.refl (H : Hub) : DrainPart H H := rfl

theorem DrainPart.trans {H K M : Hub} (a : DrainPart H K) (b : DrainPart K M) : DrainPart H M := by
  unfold DrainPart at *; rw [b, a]

theorem ReplyPart.drain {H K : Hub} (x : ReplyPart H K) : DrainPart H K := by
  unfold ReplyPart at x; unfold DrainPart; rw [x]

theorem eventsWritten_part (H : Hub) (n v : Nat) : ReplyPart H (eventsWritten H n v) := by
  unfold eventsWritten
  split
  · rfl
  · exact ((hubCount_part ..).trans (writeShadow_pool _).part).trans (raiseVec_part ..)

/-- The system ring drained, and but for it what a reply touches. -/
theorem drainSev_part (round : DWord) (H : Hub) :
    ReplyPart { H with sev := ringDrain H.sev round } (drainSev round H) :=
  (eventsWritten_part ..).trans (ringWrote_pool ..).part

theorem drainSev_sev (round : DWord) (H : Hub) : (drainSev round H).sev = ringDrain H.sev round :=
  (drainSev_part round H).read Hub.sev fun _ _ _ _ _ _ _ _ _ _ => rfl

theorem drainSev_drain (round : DWord) (H : Hub) : DrainPart H (drainSev round H) :=
  DrainPart.trans (K := { H with sev := ringDrain H.sev round }) rfl (drainSev_part round H).drain

/-- The ring of an event channel drained. -/
theorem drainChan_drain (round : DWord) (peer : Bool) (i : Nat) (H : Hub) : DrainPart H (drainChan round peer i H) := by
  unfold drainChan
  dsimp only
  cases tblGet (if peer = true then H.peerEvch else H.evch) i with
  | none => exact .refl H
  | some r =>
    refine DrainPart.trans ?_ ((eventsWritten_part ..).trans (ringWrote_pool ..).part).drain
    cases peer <;> rfl

/-- A hub that drains a channel's ring where a condition holds. -/
theorem drainPart_drained {H K : Hub} (x : DrainPart H K) (p : Prop) [Decidable p] (round : DWord) (peer : Bool) (i : Nat) :
    DrainPart H (if p then drainChan round peer i K else K) := by
  split
  · exact x.trans (drainChan_drain ..)
  · exact x

/-- The ring of a hub's own event channel after it was drained. -/
theorem drainChan_own {H : Hub} {i : Nat} {r : Ring} (round : DWord) (hr : tblGet H.evch i = some r) :
    tblGet (drainChan round false i H).evch i = some (ringDrain r round) := by
  have e : (drainChan round false i H).evch = tblSet H.evch i (ringDrain r round) := by
    simp only [drainChan, hr, Bool.false_eq_true, if_false]
    exact ((eventsWritten_part ..).trans (ringWrote_pool ..).part).read Hub.evch fun _ _ _ _ _ _ _ _ _ _ => rfl
  rw [e, tblGet_tblSet, if_pos rfl]

/-- One hub's event rings are drained, and nothing else changes but what a reply touches. -/
structure Drains (h : HubId) (s t : State) : Prop where
  only : OnlyHubs s t
  peer : hub t (peerHub h) = hub s (peerHub h)
  part : DrainPart (hub s h) (hub t h)

theorem Drains.refl (h : HubId) (s : State) : Drains h s s := ⟨.refl s, rfl, .refl _⟩

theorem Drains.trans {h : HubId} {s t u : State} (a : Drains h s t) (b : Drains h t u) : Drains h s u :=
  ⟨a.only.trans b.only, b.peer.trans a.peer, a.part.trans b.part⟩

theorem drains_modHub {h : HubId} {s : State} {f : Hub → Hub} (x : DrainPart (hub s h) (f (hub s h))) :
    Drains h s (modHub s h f) :=
  ⟨onlyHubs_modHub s h f, hub_modHub_peer s h f, by rwa [hub_modHub_same]⟩

theorem drains_foldl {α : Type} {h : HubId} {F : State → α → State} (step : ∀ s x, Drains h s (F s x)) (xs : List α)
    (s : State) : Drains h s (xs.foldl F s) := by
  induction xs generalizing s with
  | nil => exact .refl h s
  | cons x xs ih => exact (step s x).trans (ih _)

end Sys2Proof.Machine
end

section
/-! PROOF. Writes of the host registers, one law for each register; and what a telemetry stream delivers. -/

namespace Sys2Proof.Machine

open Sys2Proof

/-! ## Powered commands -/

theorem whenOn_powered {s : State} (hp : s.mod.pwrgd = true) (f : State → State) : whenOn s f = f s := if_pos hp

theorem completes_powered {s : State} {i : Instr} {P : State → Prop} (hp : s.mod.pwrgd = true) (f : State → State)
    (run : exec i s = .next (whenOn s f)) (h : P (f s)) : Completes i s P :=
  ⟨f s, by rw [run, whenOn_powered hp], h⟩

theorem exec_powered {s t : State} {i : Instr} (hp : s.mod.pwrgd = true) (f : State → State)
    (run : exec i s = .next (whenOn s f)) (h : f s = t) : exec i s = .next t := by
  rw [run, whenOn_powered hp, h]

/-! ## A hub that the host does not reach (log 110) -/

section unreached
variable {s : State} {h : HubId} (hr : hostReach (hub s h) = false)
include hr

theorem hostWrite_unreached (f : Hub → Hub) : hostWrite h s f = s := by simp [hostWrite, hr]

theorem doorbell_unreached (v : Word) (unknown : List (Nat × Hdr)) : doorbell h v unknown s = s := by simp [doorbell, hr]

theorem peerEvchCons_unreached (e : Fin 64) (v : Word) : peerEvchCons h e v s = s := by simp [peerEvchCons, hr]

theorem ringEnable_unreached : ringEnable h s = s := by simp [ringEnable, hr]

theorem ringDisable_unreached : ringDisable h s = s := by simp [ringDisable, hr]

/-- Every register write is dropped. -/
theorem registers_unreached (hp : s.mod.pwrgd = true) (v : BitVec 32) (e : Fin 64) (q : Fin 16) (off : Nat) :
    ∀ c ∈ [Instr.commandDoorbell h v [], .rplConsWrite h v, .sevConsWrite h v, .evchConsWrite h e v,
      .peerEvchConsWrite h e v, .tlmConsWrite h q v, .ringEnable h, .ringDisable h, .cntClear h,
      .registerWrite h off v], exec c s = .next s := by
  simp only [List.forall_mem_cons]
  exact ⟨exec_powered hp _ rfl (doorbell_unreached hr v []), exec_powered hp _ rfl (hostWrite_unreached hr _),
    exec_powered hp _ rfl (hostWrite_unreached hr _), exec_powered hp _ rfl (hostWrite_unreached hr _),
    exec_powered hp _ rfl (peerEvchCons_unreached hr e v), exec_powered hp _ rfl (hostWrite_unreached hr _),
    exec_powered hp _ rfl (ringEnable_unreached hr), exec_powered hp _ rfl (ringDisable_unreached hr),
    exec_powered hp _ rfl (hostWrite_unreached hr _), exec_powered hp _ rfl (hostWrite_unreached hr _),
    List.forall_mem_nil _⟩

end unreached

/-! ## What a register write makes of its hub -/

/-- A hub with the consumed index of one of its own event channels written. -/
def chanConsumed (e : Fin 64) (v : Word) (H : Hub) : Hub :=
  { H with evchCons := H.evchCons.set e.val v e.isLt, evch := match tblGet H.evch e.val with
      | some r => tblSet H.evch e.val (ringConsume r v)
      | none => H.evch }

theorem chanConsumed_index (e : Fin 64) (v : Word) (H : Hub) : (chanConsumed e v H).evchCons[e] = v := by
  simp [chanConsumed]

theorem chanConsumed_ring {e : Fin 64} (v : Word) {H : Hub} {r : Ring} (hr : tblGet H.evch e.val = some r) :
    tblGet (chanConsumed e v H).evch e.val = some (ringConsume r v) := by
  simp [chanConsumed, hr, tblGet_tblSet]

section stopped
variable {H : Hub} (off : H.running = false)
include off

theorem ringRegister_cmdLow (v : Word) :
    ringRegister 0x100 v H = { H with cmdBase := H.cmdBase.extractLsb' 32 32 ++ v } := if_neg (by simp [off])

theorem ringRegister_cmdHigh (v : Word) :
    ringRegister 0x104 v H = { H with cmdBase := v ++ H.cmdBase.extractLsb' 0 32 } := if_neg (by simp [off])

theorem ringRegister_cmdSize (v : Word) : ringRegister 0x108 v H = { H with cmdSize := v.setWidth 4 } :=
  if_neg (by simp [off])

end stopped

theorem clearDiscards_discard (P : Port) (i : Fin 16) : (clearDiscards P).discard[i] = 0 := by simp [clearDiscards]

/-- A handle waits for its release by an index of PEER_EVCH_CONS (R443). -/
def waitsFor (h : HubId) (i : Nat) (x : Handle) : Bool :=
  x.server == h && handleType x.word == 2 && handleIdx x.word == i && x.held

/-- The group with the handles released that wait for an index (R443). -/
def released (h : HubId) (i : Nat) (g : Group) : Group :=
  { g with handles := g.handles.map fun x => if waitsFor h i x then { x with held := false } else x }

/-- After a release no event channel of that index is held. -/
theorem released_held {h : HubId} {i : Nat} {g : Group} {y : Handle} (hy : y ∈ (released h i g).handles)
    (hs : y.server = h) (ht : handleType y.word = 2) (hi : handleIdx y.word = i) : y.held = false := by
  obtain ⟨x, -, rfl⟩ := List.mem_map.mp hy
  by_cases w : waitsFor h i x = true
  · rw [if_pos w]
  · rw [if_neg w] at hs ht hi ⊢
    simpa [waitsFor, hs, ht, hi] using w

/-- Where no handle waits, nothing is released. -/
theorem released_none {h : HubId} {i : Nat} {g : Group} (nobody : ∀ x ∈ g.handles, waitsFor h i x = false) :
    released h i g = g := by
  have same : (g.handles.map fun x => if waitsFor h i x then { x with held := false } else x) = g.handles :=
    (List.map_congr_left fun x hx => if_neg (by simp [nobody x hx])).trans (List.map_id' _)
  rw [released, same]

theorem modGrp_released_none {h : HubId} {i : Nat} {s : State} (nobody : ∀ x ∈ s.grp.handles, waitsFor h i x = false) :
    modGrp s (released h i) = s := by
  rw [modGrp, released_none nobody]

/-- A hub with an index of PEER_EVCH_CONS written (R422). -/
def peerConsumed (e : Fin 64) (v : Word) (H : Hub) : Hub := { H with peerCons := H.peerCons.set e.val v e.isLt }

/-! ## RUNNING (R394, R397) -/

/-- Rings that run: RUNNING, and the other hub sees it (R394, R445). -/
theorem ringsRun_runs (s : State) (h : HubId) : OnlyHubs s (ringsRun s h) ∧ (hub (ringsRun s h) h).running = true ∧
    (hub (ringsRun s h) h).enable = (hub s h).enable ∧ (hub (ringsRun s h) h).lost = false ∧
    (hub (ringsRun s h) (peerHub h)).peerAlive = true := by
  unfold ringsRun
  extract_lets s1 s2
  have d : Drains h s2 ((servedChans s2 h).foldl (fun s x => modHub s h (drainChan s.grp.round x.1 x.2))
      (modHub s2 h (drainSev s2.grp.round))) :=
    (drains_modHub (drainSev_drain ..)).trans (drains_foldl (fun _ _ => drains_modHub (drainChan_drain ..)) _ _)
  have own : hub s2 h = hub s1 h := hub_setAlive_other s1 h true
  refine ⟨((onlyHubs_modHub ..).trans (onlyHubs_setAlive ..)).trans d.only, ?_, ?_, ?_,
    d.peer ▸ setAlive_peerAlive ..⟩ <;>
  rw [d.part, own, hub_modHub_same, raiseVec_eq]

/-- Rings that end after ENABLE went to 0, with no command that waits for its reply (R394). -/
theorem ringsEnd_disabled {s : State} {h : HubId} (dr : (hub s h).draining = some true) (no : (hub s h).pendRd = [])
    (en : (hub s h).enable = false) : ringsEnd s h =
      setAlive (setHub s h (zeroIndices (raiseVec { hub s h with running := false, draining := none } 2))) (peerHub h) false := by
  simp only [ringsEnd, dr, no, en, List.isEmpty_nil, Bool.not_true, Bool.false_eq_true, if_false, if_true, Bool.and_false]
  rw [modHub_setHub]

/-- Rings that end while a command waits for its reply go on until it has it (R394). -/
theorem ringsEnd_waits {s : State} {h : HubId} (wait : (hub s h).pendRd ≠ []) : ringsEnd s h = s := by
  unfold ringsEnd
  dsimp only
  split
  · rfl
  · exact if_pos (by simp [wait])

/-- ENABLE that goes to 1: the rings run where they are not running yet and the bases and sizes are valid (R394). -/
theorem ringsEnable_eq (s : State) (h : HubId) : ringsEnable s h =
    if (hub s h).running || !ringsValid (hub s h) then setHub s h { hub s h with enable := true }
    else ringsRun (setHub s h { hub s h with enable := true }) h := by
  unfold ringsEnable
  dsimp only
  rw [hub_modHub_same]
  rfl

/-! ## A hub that the host reaches -/

section reached
variable {s : State} {h : HubId} (hr : hostReach (hub s h) = true)
include hr

theorem hostWrite_reached (f : Hub → Hub) : hostWrite h s f = modHub s h f := by simp [hostWrite, hr]

/-- A write of a register changes its hub alone. -/
theorem hostWrite_alone (f : Hub → Hub) :
    OnlyHubs s (hostWrite h s f) ∧ hub (hostWrite h s f) (peerHub h) = hub s (peerHub h) := by
  rw [hostWrite_reached hr]
  exact ⟨onlyHubs_modHub .., hub_modHub_peer ..⟩

theorem hub_hostWrite (f : Hub → Hub) : hub (hostWrite h s f) h = f (hub s h) := by
  rw [hostWrite_reached hr, hub_modHub_same]

/-- COMMAND_DOORBELL without an entry of an unknown opcode (R393). -/
theorem doorbell_plain (v : Word) : doorbell h v [] s = setHub s h { hub s h with cmdProd := v } := by
  simp [doorbell, hr, modHub]

/-- SEV_CONS_WRITE (R393). -/
theorem sevCons_cons (v : Word) : (hub (sevCons h v s) h).sev.cons = v := by
  unfold sevCons
  rw [hub_hostWrite hr _]
  dsimp only
  split
  · rw [drainSev_sev, ringDrain_cons]; rfl
  · rfl

/-- Room in the system ring brings the EVENTS_LOST event with the drop count (R397). -/
theorem sevCons_lost (v : Word) (drops : (hub s h).sev.drops ≠ 0) (on : ringsOn (hub s h) = true)
    (room : ringRoom (ringConsume (hub s h).sev v) 1 = true) :
    (hub (sevCons h v s) h).sev.drops = 0 ∧ lostEntry s.grp.round (hub s h).sev.drops ∈ (hub (sevCons h v s) h).sev.out := by
  unfold sevCons
  rw [hub_hostWrite hr _]
  dsimp only
  rw [if_pos (show ringsOn { hub s h with sev := ringConsume (hub s h).sev v } = true from on), drainSev_sev]
  exact ringDrain_lost s.grp.round (r := ringConsume (hub s h).sev v) drops room

/-- EVCH_CONS_WRITE: the index is written, and what waits may follow (R397, R443). -/
theorem hub_evchCons (e : Fin 64) (v : Word) : ∃ drained : Bool, hub (evchCons h e v s) h =
    if drained then drainChan s.grp.round false e.val (chanConsumed e v (hub s h)) else chanConsumed e v (hub s h) :=
  ⟨_, hub_hostWrite hr _⟩

theorem evchCons_index (e : Fin 64) (v : Word) : (hub (evchCons h e v s) h).evchCons[e] = v := by
  obtain ⟨drained, x⟩ := hub_evchCons hr e v
  rw [x]
  cases drained
  · exact chanConsumed_index ..
  · rw [if_pos rfl, drainChan_drain]; exact chanConsumed_index ..

theorem evchCons_ring (e : Fin 64) (v : Word) {r : Ring} (hx : tblGet (hub s h).evch e.val = some r) :
    ∃ r', tblGet (hub (evchCons h e v s) h).evch e.val = some r' ∧ r'.cons = v := by
  obtain ⟨drained, x⟩ := hub_evchCons hr e v
  rw [x]
  cases drained
  · exact ⟨_, chanConsumed_ring v hx, rfl⟩
  · exact ⟨_, drainChan_own _ (chanConsumed_ring v hx), ringDrain_cons ..⟩

/-- PEER_EVCH_CONS_WRITE: the index is written, the channels that wait for it are released, and the rest is draining
(R422, R443). -/
theorem peerEvchCons_drains (e : Fin 64) (v : Word) :
    Drains h (modGrp (setHub s h (peerConsumed e v (hub s h))) (released h e.val)) (peerEvchCons h e v s) := by
  unfold peerEvchCons
  rw [if_neg (by simp [hr])]
  extract_lets i mine rel r s1
  change Drains h (modGrp s1 (released h i)) _
  split
  case isTrue empty =>
    have nobody : ∀ x ∈ s1.grp.handles, waitsFor h i x = false := by
      simpa [rel, mine, waitsFor, s1] using empty
    rw [modGrp_released_none nobody]
    refine drains_modHub ?_
    split
    · exact .refl _
    · refine drainPart_drained ?_ _ _ _ _
      rfl
  case isFalse =>
    refine drains_foldl (fun u x => drains_modHub ?_) rel (modGrp s1 (released h i))
    refine drainPart_drained ?_ _ _ _ _
    split <;> rfl

theorem peerEvchCons_releases (e : Fin 64) (v : Word) :
    let t := peerEvchCons h e v s
    t.lanes = s.lanes ∧ t.tiles = s.tiles ∧ t.mod = s.mod ∧ hub t (peerHub h) = hub s (peerHub h) ∧
      (hub t h).peerCons[e] = v ∧
      ∀ y ∈ t.grp.handles, y.server = h → handleType y.word = 2 → handleIdx y.word = e.val → y.held = false := by
  intro t
  obtain ⟨only, peer, part⟩ := peerEvchCons_drains hr e v
  obtain ⟨grp, lanes, tiles, mod⟩ := only.fields
  refine ⟨lanes.trans (by simp), tiles.trans (by simp), mod.trans (by simp), peer.trans (by simp), ?_,
    fun y hy => released_held (grp ▸ hy)⟩
  rw [part]
  simp [peerConsumed]

/-- TLM_CONS_WRITE (R437). -/
theorem tlmCons_index (q : Fin 16) (v : Word) : (hub (tlmCons h q v s) h).tlmCons[q] = v := by
  unfold tlmCons
  rw [hub_hostWrite hr _]
  simp

/-- A register of the ring block (R393, R394). -/
theorem registerWrite_ring {off : Nat} (v : Word) (ho : off < 0x30C0) {K : Hub} (hK : ringRegister off v (hub s h) = K) :
    registerWrite h off v s = setHub s h K := by
  unfold registerWrite
  rw [hostWrite_reached hr, modHub, if_neg (by simp; omega), hK]

theorem exec_ringRegister (hp : s.mod.pwrgd = true) {off : Nat} {v : Word} (ho : off < 0x30C0) {K : Hub}
    (hK : ringRegister off v (hub s h) = K) : exec (.registerWrite h off v) s = .next (setHub s h K) :=
  exec_powered hp (registerWrite h off v) rfl (registerWrite_ring hr v ho hK)

/-- RING_ENABLE with bases and sizes that are not valid: ENABLE alone (R394). -/
theorem ringEnable_invalid (en : (hub s h).enable = false) (bad : ringsValid (hub s h) = false) :
    ringEnable h s = setHub s h { hub s h with enable := true } := by
  simp [ringEnable, hr, en, ringsEnable_eq, bad]

/-- RING_ENABLE with valid bases and sizes: the rings run (R394, R397). -/
theorem ringEnable_valid (en : (hub s h).enable = false) (off : (hub s h).running = false)
    (good : ringsValid (hub s h) = true) :
    ringEnable h s = ringsRun (setHub s h { hub s h with enable := true }) h := by
  simp [ringEnable, hr, en, ringsEnable_eq, good, off]

/-- RING_DISABLE of running rings: the fetched commands end first (R394). -/
theorem ringDisable_running (en : (hub s h).enable = true) (on : (hub s h).running = true) :
    ringDisable h s = ringsEnd (setHub s h { hub s h with enable := false, draining := some true }) h := by
  simp [ringDisable, hr, en, on]

/-- RING_ENABLE with valid bases and sizes (R394, R445). -/
theorem ringEnable_runs (en : (hub s h).enable = false) (off : (hub s h).running = false)
    (good : ringsValid (hub s h) = true) :
    let t := ringEnable h s
    OnlyHubs s t ∧ (hub t h).running = true ∧ (hub t h).enable = true ∧ (hub t h).lost = false ∧
      (hub t (peerHub h)).peerAlive = true := by
  intro t
  have e : t = ringsRun (setHub s h { hub s h with enable := true }) h := ringEnable_valid hr en off good
  obtain ⟨only, running, enable, lost, alive⟩ := ringsRun_runs (setHub s h { hub s h with enable := true }) h
  rw [e]
  exact ⟨(onlyHubs_setHub ..).trans only, running, enable.trans (by simp), lost, alive⟩

/-- RING_DISABLE while no command waits for its reply: the rings end at once (R394, R445). -/
theorem ringDisable_ends (en : (hub s h).enable = true) (on : (hub s h).running = true) (no : (hub s h).pendRd = []) :
    let t := ringDisable h s
    OnlyHubs s t ∧ (hub t h).running = false ∧ (hub t h).enable = false ∧ (hub t h).cmdProd = 0 ∧
      (hub t h).cmdCons = 0 ∧ (hub t (peerHub h)).peerAlive = false := by
  intro t
  have e : t = setAlive (setHub (setHub s h { hub s h with enable := false, draining := some true }) h
      (zeroIndices (raiseVec { hub s h with enable := false, running := false, draining := none } 2))) (peerHub h) false := by
    show ringDisable h s = _
    rw [ringDisable_running hr en on, ringsEnd_disabled (by simp) (by simpa using no) (by simp), hub_setHub_same]
  have own : hub t h = zeroIndices (raiseVec { hub s h with enable := false, running := false, draining := none } 2) := by
    rw [e, hub_setAlive_other, hub_setHub_same]
  rw [own, raiseVec_eq, e]
  exact ⟨((onlyHubs_setHub ..).trans (onlyHubs_setHub ..)).trans (onlyHubs_setAlive ..), rfl, rfl, rfl, rfl,
    setAlive_peerAlive ..⟩

/-- RING_DISABLE while a command waits for its reply: RUNNING stays until it has it (R394). -/
theorem ringDisable_waits (en : (hub s h).enable = true) (on : (hub s h).running = true) (wait : (hub s h).pendRd ≠ []) :
    ringDisable h s = setHub s h { hub s h with enable := false, draining := some true } := by
  rw [ringDisable_running hr en on, ringsEnd_waits (by simpa using wait)]

/-- Bases and sizes stand while the rings run (R394). -/
theorem registerWrite_running (on : (hub s h).running = true) {off : Nat} (v : Word) (ho : off < 0x134) :
    registerWrite h off v s = s := by
  have kept : ringRegister off v (hub s h) = hub s h := by
    unfold ringRegister
    split
    · omega
    · omega
    · exact if_pos on
  rw [registerWrite_ring hr v (by omega) kept, setHub_hub]

end reached

/-! ## Telemetry (R437, R501) -/

/-- The second stream is the first with records written. -/
def Offered (x y : Stream) : Prop := y.latest = x.latest ∧ y.running = x.running ∧ x.out <+: y.out

theorem Offered.refl (x : Stream) : Offered x x := ⟨rfl, rfl, [], List.append_nil _⟩

theorem Offered.trans {x y z : Stream} (a : Offered x y) (b : Offered y z) : Offered x z :=
  ⟨b.1.trans a.1, b.2.1.trans a.2.1, a.2.2.trans b.2.2⟩

theorem tlmAppend_offered (x : Stream) (r : TlmRec) : Offered x (tlmAppend x r) := ⟨rfl, rfl, [r], rfl⟩

theorem tlmOffer_offered (x : Stream) (r : TlmRec) : Offered x (tlmOffer x r).1 := by
  unfold tlmOffer
  dsimp only
  split
  · split
    · exact tlmAppend_offered ..
    · exact .refl x
  · split
    · have told (d : TlmRec) : Offered x (tlmAppend { x with drops := 0 } d) := tlmAppend_offered { x with drops := 0 } d
      split
      · exact (told _).trans (tlmAppend_offered ..)
      · exact told _
    · exact .refl x

/-- Records offered one after the other, with the count of those lost. -/
theorem tlmOffers_offered (rs : List TlmRec) (y : Stream × Nat) :
    Offered y.1 (rs.foldl (fun y r => let z := tlmOffer y.1 r; (z.1, y.2 + if z.2 then 0 else 1)) y).1 := by
  induction rs generalizing y with
  | nil => exact .refl _
  | cons r rs ih => exact (tlmOffer_offered y.1 r).trans (ih _)

/-- A record for a stream of a hub. -/
theorem hubTlm_offered (free : Bool) {H : Hub} {q : Nat} {x : Stream} (hx : tblGet H.streams q = some x) (r : TlmRec) :
    ∃ y, tblGet (hubTlm free H q r).streams q = some y ∧ Offered x y := by
  unfold hubTlm
  rw [hx]
  dsimp only
  split
  · split
    · refine ⟨_, ?_, tlmOffers_offered (x.waiting ++ [r]) ({ x with waiting := [] }, 0)⟩
      rw [show ∀ c bs K, (writeBursts c bs K).streams = K.streams from fun c bs K =>
        (writeBursts_pool c bs K).part.read Hub.streams fun _ _ _ _ _ _ _ _ _ _ => rfl]
      rw [tblGet_tblSet, if_pos rfl]
    · exact ⟨{ x with waiting := x.waiting ++ [r] }, by rw [tblGet_tblSet, if_pos rfl], rfl, rfl, [], List.append_nil _⟩
  · exact ⟨x, hx, .refl x⟩

theorem hubTlms_offered (free : Bool) (q : Nat) (rs : List TlmRec) {H : Hub} {x : Stream} (hx : tblGet H.streams q = some x) :
    ∃ y, tblGet (rs.foldl (fun H r => hubTlm free H q r) H).streams q = some y ∧ Offered x y := by
  induction rs generalizing H x with
  | nil => exact ⟨x, hx, .refl x⟩
  | cons r rs ih =>
    obtain ⟨y, hy, o⟩ := hubTlm_offered free hx r
    obtain ⟨z, hz, p⟩ := ih hy
    exact ⟨z, hz, o.trans p⟩

theorem samplePeriod_alone (s : State) (h : HubId) (q : Fin 16) :
    OnlyHubs s (samplePeriod h q s) ∧ hub (samplePeriod h q s) (peerHub h) = hub s (peerHub h) := by
  unfold samplePeriod
  exact ⟨onlyHubs_modHub .., hub_modHub_peer ..⟩

/-- TELEMETRY_SAMPLE_PERIOD_END: a running stream delivers what it has, and keeps what it delivered before (R501). -/
theorem samplePeriod_delivers {s : State} {h : HubId} {q : Fin 16} {x : Stream} (hx : tblGet (hub s h).streams q.val = some x)
    (run : x.running = true) (serves : hubServes (hub s h) = true) (on : ringsOn (hub s h) = true) :
    ∃ y, tblGet (hub (samplePeriod h q s) h).streams q.val = some y ∧ y.latest = [] ∧ y.running = true ∧ x.out <+: y.out := by
  have emptied : tblGet ({ hub s h with streams := tblSet (hub s h).streams q.val { x with latest := [] } } : Hub).streams q.val =
      some { x with latest := [] } := by rw [tblGet_tblSet, if_pos rfl]
  obtain ⟨y, hy, latest, running, out⟩ := hubTlms_offered (itemFree s h .telemetry) q.val x.latest emptied
  refine ⟨y, ?_, latest, running.trans run, out⟩
  simpa [samplePeriod, hx, run, serves, on] using hy

/-! ## The statement -/

/-- Settles O42: register by register, from what a write makes of its hub. -/
theorem hostRegisters : Obligations.HostRegisters := by
  intro s h v e q off x hp
  dsimp only
  refine ⟨fun no => registers_unreached ?_ hp v e q off, fun fw up => ?_, fun hx run serves on =>
    completes_powered hp (samplePeriod h q) rfl ⟨samplePeriod_alone s h q, samplePeriod_delivers hx run serves on⟩⟩
  case refine_1 => rcases no with no | no <;> simp [hostReach, no]
  have hr : hostReach (hub s h) = true := Bool.and_eq_true_iff.mpr ⟨fw, up⟩
  refine ⟨exec_powered hp (doorbell h v []) rfl (doorbell_plain hr v), ?_, ?_, ?_, ?_, ?_,
    fun en rn => ⟨fun good => ?_, fun bad => ?_⟩, fun en rn => ⟨fun no => ?_, fun wait => ?_⟩, ?_, fun rn => ⟨?_, ?_⟩, fun rn => ⟨?_, ?_, ?_⟩, ?_⟩
  case refine_1 =>
    refine completes_powered hp (fun s => hostWrite h s fun H => { H with rpl := ringConsume H.rpl v }) rfl
      ⟨hostWrite_alone hr _, ?_, ?_⟩ <;> rw [hub_hostWrite hr] <;> rfl
  case refine_2 =>
    exact completes_powered hp (sevCons h v) rfl ⟨hostWrite_alone hr _, sevCons_cons hr v, sevCons_lost hr v⟩
  case refine_3 =>
    exact completes_powered hp (evchCons h e v) rfl
      ⟨hostWrite_alone hr _, evchCons_index hr e v, fun _ => evchCons_ring hr e v⟩
  case refine_4 => exact completes_powered hp (peerEvchCons h e v) rfl (peerEvchCons_releases hr e v)
  case refine_5 => exact completes_powered hp (tlmCons h q v) rfl ⟨hostWrite_alone hr _, tlmCons_index hr q v⟩
  case refine_6 => exact completes_powered hp (ringEnable h) rfl (ringEnable_runs hr en rn good)
  case refine_7 => exact exec_powered hp (ringEnable h) rfl (ringEnable_invalid hr en bad)
  case refine_8 => exact completes_powered hp (ringDisable h) rfl (ringDisable_ends hr en rn no)
  case refine_9 => exact exec_powered hp (ringDisable h) rfl (ringDisable_waits hr en rn wait)
  case refine_10 =>
    refine completes_powered hp _ rfl ⟨hostWrite_alone hr _, ?_⟩
    rw [hub_hostWrite hr]
    exact ⟨rfl, fun i => ⟨clearDiscards_discard _ i, clearDiscards_discard _ i⟩, rfl⟩
  case refine_11 => exact exec_powered hp (registerWrite h 0x100 v) rfl (registerWrite_running hr rn v (by decide))
  case refine_12 => exact exec_powered hp (registerWrite h 0x108 v) rfl (registerWrite_running hr rn v (by decide))
  case refine_13 => exact exec_ringRegister hr hp (by decide) (ringRegister_cmdLow rn v)
  case refine_14 => exact exec_ringRegister hr hp (by decide) (ringRegister_cmdHigh rn v)
  case refine_15 => exact exec_ringRegister hr hp (by decide) (ringRegister_cmdSize rn v)
  case refine_16 => exact exec_ringRegister hr hp (by decide) rfl

end Sys2Proof.Machine
end
